-- ==== Sys2Proof/Word.lean ====
section
/-! DEFINITION. Word.lean: the widths the manual uses (Conventions of 00_scope.md). -/

namespace Sys2Proof

/-- One byte of memory. -/
abbrev Byte := BitVec 8

/-- A 16-bit field: a tag, a counter, a mark. -/
abbrev Half := BitVec 16

/-- A 32-bit register, address or count. -/
abbrev Word := BitVec 32

/-- A tick time: a 48-bit count of ticks. -/
abbrev Tick := BitVec 48

/-- The data of one transaction of the Memory Port, up to 64 bytes (R168), as one little-endian
number: the byte at offset k stands in bits 8k to 8k + 7. -/
abbrev BusData := BitVec 512

end Sys2Proof
end

