-- ==== Sys2Proof/Syntax.lean ====
section
/-! DEFINITION. Syntax.lean: the commands of the block, one constructor per row of
spec/opcode_table.json, and the types of their operands. -/

namespace Sys2Proof

/-- A level of an input or output line. -/
inductive Level
  | low
  | high
  deriving DecidableEq, Repr

/-- The kind of an edge of an input line (R54). -/
inductive Edge
  | rise
  | fall
  deriving DecidableEq, Repr

/-- CH0 to CH15. -/
abbrev ChanId := Fin 16

/-- Lane 0 to lane 3. -/
abbrev LaneId := Fin 4

/-- Slot 0 to slot 15. -/
abbrev SlotId := Fin 16

/-- Converter inputs: AIN0 to AIN7, INTREF (8), ZERO (9) (Table 5-3). -/
abbrev InputId := Fin 10

/-- The three requesters of the Memory Port (Table 8-2). -/
inductive Requester
  | loader
  | writer
  | engine
  deriving DecidableEq, Repr

/-- The counter event a link is attached to (R99). -/
inductive EventKind
  | action
  | wrap
  deriving DecidableEq, Repr

/-- Channel states (Table 3-3). -/
inductive ChanMode
  | unset
  | stopped
  | running
  | paused
  | armed
  | pulsing
  deriving DecidableEq, Repr

/-- The source of a conversion request: a CONVERT cue, or a channel's link (R112). -/
inductive Source
  | cue (lane : LaneId) (seq : Word)
  | link (ch : ChanId) (kind : EventKind)
  deriving DecidableEq, Repr

/-- Causes of DROP records (Table 5-6). -/
inductive DropCause
  | queueFull
  | converterOff
  | powerOff
  | sessionEnd
  | fault
  deriving DecidableEq, Repr

/-- Outcomes of cues that a CUE_REPORT can carry, in the order of Table 9-15. -/
inductive CueOutcome
  | done
  | doneReplacing
  | already
  | ignored
  | empty
  | doneLate
  | skippedLate
  | partly
  | refusedState
  | refusedSettings
  | refusedQueueFull
  | refusedConverterOff
  | malformed
  | order
  deriving DecidableEq, Repr

/-- Lane fault causes (Table 2-4). -/
inductive LaneFaultCause
  | readError
  | fillBackwards
  | fillRange
  | badNext
  | writeError
  | sequenceLimit
  deriving DecidableEq, Repr

/-- Kinds of LANE_EVENT records (R45 to R48). -/
inductive LaneEvent
  | fault (cause : LaneFaultCause)
  | ended
  | cancelled
  deriving DecidableEq, Repr

/-- Reject reasons of a slot (R130). -/
inductive RejectReason
  | badAlign
  | badSize
  | outsideWindow
  deriving DecidableEq, Repr

/-- The fields of a CUE_REPORT (R5). `code` is the action code of R184. For a MALFORMED cue `detail`
holds the target byte (low) and the verb byte (high) found in memory; else it is the lateness. -/
structure CueReport where
  lane : LaneId
  seq : Word
  code : Byte
  outcome : CueOutcome
  time : Tick
  detail : Half
  tag : Half
  deriving DecidableEq, Repr

/-- A record of the result queue (Table 6-1). The FAULT record never passes through the queue (R142)
and has a type of its own in State. Ticks are kept in full; their low 32 bits are written (R183). -/
inductive Rec
  | capture (ch : ChanId) (edge : Edge) (counter tag : Half) (wraps : Word) (tick : Tick)
  | snapshot (ch : ChanId) (mode : ChanMode) (output : Level) (staged : Bool) (counter tag : Half)
      (wraps : Word) (tick : Tick)
  | sample (input : InputId) (source : Source) (value : BitVec 12) (tag : Half) (start : Tick)
  | drop (input : InputId) (source : Source) (cause : DropCause) (tag : Half) (tick : Tick)
  | cueReport (r : CueReport)
  | laneEvent (lane : LaneId) (event : LaneEvent) (segment count : Word) (tick : Tick)
  | note (tag : Half) (payload : Option (BitVec 128)) (tick : Tick)
  | slotReject (slot : SlotId) (reason : RejectReason) (tick : Tick)
  deriving DecidableEq, Repr

/-- The commands: one constructor per row of spec/opcode_table.json. The sender of the queue is the
host, the bus, the pins, the clocks and the blocks' own events together (INVENTORY.md, Agents). -/
inductive Instr
  /-- PREPARE, R149. -/
  | prepare
  /-- START_COMMAND, R156. -/
  | startCommand
  /-- STOP_COMMAND, R157. -/
  | stopCommand
  /-- ABORT, R159, R153. -/
  | abort
  /-- NUDGE, R165. -/
  | nudge
  /-- RESET, R166. -/
  | reset
  /-- UNKNOWN_COMMAND, R147: the 32-bit value written to CONTROL. -/
  | unknownCommand (code : Word)
  /-- BASE_WRITE, R178. -/
  | baseWrite (value : Word)
  /-- ALERT_WRITE, R180. -/
  | alertWrite (value : Word)
  /-- ALERT_ENABLE_WRITE, R180. -/
  | alertEnableWrite (value : Word)
  /-- TIME_LO_READ, R181; a narrow read has the effect of a full one (R178). -/
  | timeLoRead
  /-- IGNORED_REGISTER_WRITE, R178: the offset, how many bytes are written, and the value. -/
  | ignoredRegisterWrite (offset : BitVec 5) (bytes : Fin 5) (value : Word)
  /-- DEVICE_RESET, R167. -/
  | deviceReset
  /-- ENGINE_RESET, R166. -/
  | engineReset
  /-- QUIET_INTERVAL_END, R177, at a reading of the reference clock. -/
  | quietIntervalEnd (at_ : Nat)
  /-- START_LINE_EDGE, R156: the level the START line is now sampled at. -/
  | startLineEdge (level : Level)
  /-- TIMEBASE_TICK, R154. -/
  | timebaseTick
  /-- TIMEBASE_END, R155. -/
  | timebaseEnd
  /-- TICK_ARRIVAL, R54: channel and the level of its input line. -/
  | tickArrival (ch : ChanId) (level : Level)
  /-- SCAN_EVENT, R33. -/
  | scanEvent
  /-- EXPIRY, R17. -/
  | expiry
  /-- LANE_HEAD_OFFER, R15. -/
  | laneHeadOffer (lane : LaneId)
  /-- SET, R62. -/
  | set (ch : ChanId)
  /-- START, R63. -/
  | start (ch : ChanId)
  /-- STOP, R65. -/
  | stop (ch : ChanId)
  /-- PAUSE, R66. -/
  | pause (ch : ChanId)
  /-- RESUME, R67. -/
  | resume (ch : ChanId)
  /-- STAGE, R69. -/
  | stage (ch : ChanId)
  /-- FIRE, R91. -/
  | fire (ch : ChanId)
  /-- SNAPSHOT, R68. -/
  | snapshot (ch : ChanId)
  /-- POWER_ON, R107. -/
  | powerOn
  /-- POWER_OFF, R109. -/
  | powerOff
  /-- REFERENCE, R110. -/
  | reference
  /-- CONVERT, R114. -/
  | convert
  /-- NOTE, R10. -/
  | note
  /-- CLOSE_PAGE, R11. -/
  | closePage
  /-- END, R12. -/
  | endCue
  /-- FIRE_LINK_DELIVERY, R101: the linking channel and channel n of its link. -/
  | fireLinkDelivery (source target : ChanId)
  /-- CONVERT_LINK_REQUEST, R115: the linking channel. -/
  | convertLinkRequest (source : ChanId)
  /-- WARM_UP_END, R108. -/
  | warmUpEnd
  /-- SETTLING_END, R111. -/
  | settlingEnd
  /-- CONVERSION_END, R113. -/
  | conversionEnd
  /-- REQUEST_PRESENT, R169. -/
  | requestPresent (r : Requester)
  /-- GRANT, R170, at a reading of the reference clock. -/
  | grant (at_ : Nat)
  /-- BUS_ACCEPT, R171. -/
  | busAccept
  /-- RESPONSE, R172: the requester and issue number it names, OKAY or ERROR, and a read's data. -/
  | response (r : Requester) (issue : Byte) (okay : Bool) (data : BusData)
  /-- TIMEOUT, R173, at a reading of the reference clock. -/
  | timeout (r : Requester) (at_ : Nat)
  /-- INITIAL_FETCH_COMPLETE, R40. -/
  | initialFetchComplete
  /-- SLOT_TAKING, R130. -/
  | slotTaking
  /-- CLOSE_MARKER_REACHED, R126. -/
  | closeMarkerReached
  /-- END_MARKER_REACHED, R140. -/
  | endMarkerReached
  /-- DEADLINE_EXPIRY, R136. -/
  | deadlineExpiry
  /-- DRAIN_LIMIT_EXPIRY, R134. -/
  | drainLimitExpiry
  /-- LOADER_QUIET, R48. -/
  | loaderQuiet
  /-- END_MARKER_PLACE, R158. -/
  | endMarkerPlace
  /-- END_SUMMARY_WRITE, R164. -/
  | endSummaryWrite
  /-- RECORD_OFFER, R125. -/
  | recordOffer (rec : Rec)
  /-- DEVICE_RESET_END, R177, at a reading of the reference clock. -/
  | deviceResetEnd (at_ : Nat)
  deriving DecidableEq, Repr

end Sys2Proof
end

