-- ==== Sys2Proof/WellFormed.lean ====
section
/-! DEFINITION. WellFormed.lean: which terms of Instr stand for a command of the table. The operands'
types already bound channels, lanes, slots, inputs, requesters, ticks and data; what is left is
checked here. -/

namespace Sys2Proof

/-- A code that Chapter 9 does not assign to a command of CONTROL (R147, R178). -/
def unassignedCode (code : Word) : Bool := code.toNat == 0 || decide (6 < code.toNat)

/-- The offsets of the register window at which a full-word write is ignored (R178): STATE, TIME_LO,
TIME_HI and 1CH. -/
def readOnlyOffset (offset : BitVec 5) : Bool :=
  offset.toNat == 0x08 || offset.toNat == 0x14 || offset.toNat == 0x18 || offset.toNat == 0x1C

/-- A write that is ignored: one to three bytes anywhere, or a word at a read-only offset (R178), or four bytes at an
offset that is no multiple of 4 (the model's choice, assumption log 38). -/
def ignoredWrite (offset : BitVec 5) (bytes : Fin 5) : Bool :=
  decide (0 < bytes.val) && (decide (bytes.val < 4) || readOnlyOffset offset || offset.toNat % 4 != 0)

/-- Every check on a command's operands. -/
def Instr.wellFormed : Instr → Bool
  | .unknownCommand code => unassignedCode code
  | .ignoredRegisterWrite offset bytes _ => ignoredWrite offset bytes
  | .fireLinkDelivery source target => decide (source ≠ target)
  | .prepare | .startCommand | .stopCommand | .abort | .nudge | .reset
  | .baseWrite _ | .alertWrite _ | .alertEnableWrite _ | .timeLoRead
  | .deviceReset | .engineReset | .quietIntervalEnd _ | .startLineEdge _ | .timebaseTick
  | .timebaseEnd | .tickArrival _ _ | .scanEvent | .expiry | .laneHeadOffer _
  | .set _ | .start _ | .stop _ | .pause _ | .resume _ | .stage _ | .fire _ | .snapshot _
  | .powerOn | .powerOff | .reference | .convert | .note | .closePage | .endCue
  | .convertLinkRequest _ | .warmUpEnd | .settlingEnd | .conversionEnd
  | .requestPresent _ | .grant _ | .busAccept | .response _ _ _ _ | .timeout _ _
  | .initialFetchComplete | .slotTaking | .closeMarkerReached | .endMarkerReached
  | .deadlineExpiry | .drainLimitExpiry | .loaderQuiet | .endMarkerPlace | .endSummaryWrite
  | .recordOffer _ | .deviceResetEnd _ => true

end Sys2Proof
end

