-- ==== Sys2Proof/Decode.lean ====
section
/-! DEFINITION. Decode.lean: the commands that a word of bits spells. The block has no instruction
decoder, and no row of spec/opcode_table.json gives bits (every "fields" is empty, none has "fixed"),
so no word spells a command. -/

namespace Sys2Proof

/-- The command that the word `w` of `nbits` bits spells by the table's bits: none, for every row. -/
def decodeTableWord (_nbits _w : Nat) : Option Instr := none

end Sys2Proof
end

