-- ==== Sys2Proof/Config.lean ====
section
/-! DEFINITION. Config.lean: what is fixed for the part, and the free value the manual leaves open. -/

namespace Sys2Proof

/-- The reference voltages of the Converter (Table 5-1). -/
inductive Reference
  | supply
  | vrefPin
  deriving DecidableEq, Repr

namespace Config

/-- Places of the Calendar (R13). -/
def calendarPlaces : Nat := 48

/-- Places of the result queue (R124). -/
def resultPlaces : Nat := 32

/-- The queue length from which the arbiter prefers the Result Writer (R170). -/
def busyResultQueue : Nat := 24

/-- Places of the Converter's request queue (R112). -/
def converterPlaces : Nat := 8

/-- Entries of a lane's segment trail (R41). -/
def trailPlaces : Nat := 4

/-- Scan events after which the drain limit expires (R134). -/
def drainScanLimit : Nat := 16

/-- 40 microseconds in periods of the 100 MHz reference clock: the bus timeout (R173) and the quiet
interval (R177). -/
def fortyMicroseconds : Nat := 4000

/-- The value a conversion gives (R105). FREE VALUE: the manual puts the accuracy of the value outside
its scope, so the `n`-th conversion begun, of an input against a reference, gives some value of 0 to
4095 and nothing more is known of it (assumption log 7). -/
opaque conversionValue (n : Nat) (input : InputId) (ref : Reference) : BitVec 12

end Config
end Sys2Proof
end

