-- ==== Sys2Proof/Machine/State.lean ====
section
/-! DEFINITION. Machine/State.lean: everything the spec gives the part, as plain data, and the state
right after reset. One structure per block of Table I-1. -/

namespace Sys2Proof.Machine

/-- Reasons to stop with a fault. There are none: the part's own faults (lane faults, the fatal faults
of R160, failed accesses) are effects on State, and ordinary data ends no run. -/
inductive Fault
  deriving DecidableEq, Repr

/-- Reasons to refuse a command. -/
inductive Refusal
  /-- The command has no meaning yet. Raised by an arm of `exec` alone; no arm raises it. Safe. -/
  | notModelled (mnemonic : String)
  deriving DecidableEq, Repr

/-! ## Channels (Chapters 3 and 4) -/

/-- Channel shapes (Table 3-2). -/
inductive Shape
  | matching
  | wave
  | oneShot
  | capture
  deriving DecidableEq, Repr

/-- Channel clocks (Table 3-2): `div k` divides the tick by 2 to the k, k from 0 to 7. -/
inductive Clock
  | div (k : Fin 8)
  | edgeRise
  | edgeFall
  | edgeBoth
  deriving DecidableEq, Repr

inductive WrapSource
  | period
  | action
  deriving DecidableEq, Repr

inductive InputEdge
  | none
  | rise
  | fall
  | both
  deriving DecidableEq, Repr

inductive MatchAction
  | none
  | low
  | high
  | toggle
  deriving DecidableEq, Repr

inductive Polarity
  | activeHigh
  | activeLow
  deriving DecidableEq, Repr

inductive Retrigger
  | ignore
  | extend
  deriving DecidableEq, Repr

/-- A link field (R99): nothing, a conversion request, or a FIRE. -/
inductive Link
  | none
  | convert (k : InputId)
  | fire (n : ChanId)
  deriving DecidableEq, Repr

/-- The settings record a channel has accepted (Table 3-2, R52). -/
structure Settings where
  shape : Shape
  clock : Clock
  /-- P; 0 stands for 65536. -/
  period : Half
  /-- A. -/
  action : Half
  wrapSource : WrapSource
  inputEdge : InputEdge
  matchAction : MatchAction
  initialLevel : Level
  polarity : Polarity
  restLevel : Level
  retrigger : Retrigger
  rearm : Bool
  linkAction : Link
  linkWrap : Link
  deriving DecidableEq, Repr

/-- Staged marks (R69): a mark not staged is absent. -/
structure Marks where
  period : Option Half
  action : Option Half
  deriving DecidableEq, Repr

/-- The state a PAUSED channel returns to (R66). -/
inductive PausedFrom
  | running
  | pulsing
  deriving DecidableEq, Repr

/-- The state of one channel (Table 3-1). -/
structure Channel where
  mode : ChanMode
  settings : Option Settings
  restLevel : Level
  staged : Option Marks
  counter : Half
  wrapCount : Word
  output : Level
  tag : Half
  /-- Divider phase, 0 to 127. -/
  phase : Nat
  /-- Restart tick. -/
  restart : Option Tick
  pausedFrom : Option PausedFrom
  lastSample : Level
  /-- The model's own: the tick arrival of the present tick has been taken (R54, one a tick). -/
  arrived : Bool
  /-- The model's own: a RESUME was taken at the present tick before its tick arrival, which then acts on no edge
  (R72, R98). -/
  resumed : Bool
  deriving DecidableEq, Repr

/-- A channel after a device reset (R76). -/
def Channel.reset : Channel :=
  { mode := .unset, settings := none, restLevel := .low, staged := none, counter := 0, wrapCount := 0,
    output := .low, tag := 0, phase := 0, restart := none, pausedFrom := none, lastSample := .low,
    arrived := true, resumed := false }

/-- A link delivery under way from its event to its target (R100, R101): the linking channel, the event,
the channel tag at the event, and the link. -/
structure LinkDelivery where
  source : ChanId
  kind : EventKind
  tag : Half
  link : Link
  deriving DecidableEq, Repr

/-! ## Cues and the Calendar (Chapter 1) -/

/-- Channel verbs with their parameters. The settings record of SET is kept as found: the channel judges
it at dispatch (R53). -/
inductive ChanVerb
  | set (record : BitVec 160)
  | start
  | stop
  | pause
  | resume
  | stage (marks : Marks)
  | fire
  | snapshot
  deriving DecidableEq, Repr

/-- Converter verbs with their parameters. -/
inductive ConvVerb
  | powerOn
  | powerOff
  | reference (ref : Reference)
  | convert (mask : BitVec 10)
  deriving DecidableEq, Repr

/-- Engine verbs with their parameters. -/
inductive EngVerb
  | note (payload : BitVec 128)
  | closePage
  | endCue
  deriving DecidableEq, Repr

/-- Target and verb of a well-formed cue (Table 1-2, R2), with the parameters the verb uses. The
parameter bytes a verb does not use are zero in a well-formed cue, so nothing of the 20 bytes of R13 is
lost. -/
inductive Action
  | channel (ch : ChanId) (verb : ChanVerb)
  | converter (verb : ConvVerb)
  | engine (verb : EngVerb)
  deriving DecidableEq, Repr

/-- Late policy (R1). -/
inductive LatePolicy
  | runLate
  | skip
  deriving DecidableEq, Repr

/-- A well-formed cue (R1, R2). -/
structure Cue where
  due : Tick
  action : Action
  tag : Half
  late : LatePolicy
  report : Bool
  payloadPresent : Bool
  deriving DecidableEq, Repr

/-- An entry of the Calendar (R13). The trail reference is the address of the segment the cue came from:
no segment stands twice in a trail (R41), and the reference is used only while the entry stands there. -/
structure Entry where
  cue : Cue
  lane : LaneId
  seq : Word
  trailRef : Word
  lateMark : Bool
  deriving DecidableEq, Repr

/-! ## Lanes and the Loader (Chapter 2) -/

/-- Lane states (Table 2-3). -/
inductive LaneState
  | off
  | active
  | waiting
  | blocked
  | ended
  | faulted
  | stopped
  deriving DecidableEq, Repr

/-- What a trail entry holds once its segment is seen finished (R41). -/
structure Finish where
  fill : Nat
  next : Word
  deriving DecidableEq, Repr

/-- An entry of a segment trail (R41). -/
structure TrailEntry where
  address : Word
  fetched : Nat
  retired : Nat
  finish : Option Finish
  deriving DecidableEq, Repr

/-- Why a head is held at the lane head (R43). -/
inductive HeldOutcome
  | malformed
  | order
  | cancelled
  deriving DecidableEq, Repr

/-- What a lane head is: an accepted cue, or a held head with its outcome (R43). -/
inductive HeadBody
  | accepted (cue : Cue)
  | held (outcome : HeldOutcome)
  deriving DecidableEq, Repr

/-- The lane head (Table 2-2). -/
structure Head where
  seq : Word
  trailRef : Word
  body : HeadBody
  deriving DecidableEq, Repr

/-- A reread request: absent, present, or present with one kept (R34, Table 6-2). -/
inductive Reread
  | absent
  | present
  | kept
  deriving DecidableEq, Repr

/-- The state of one lane (Table 2-2). -/
structure Lane where
  state : LaneState
  current : Word
  fetchIndex : Nat
  knownFill : Nat
  head : Option Head
  lastDue : Tick
  seqCounter : Word
  cuesRetired : Word
  /-- Oldest first. -/
  trail : List TrailEntry
  pendingNext : Option Word
  reread : Reread
  deriving DecidableEq, Repr

/-- A lane after a device reset (R50). -/
def Lane.off : Lane :=
  { state := .off, current := 0, fetchIndex := 0, knownFill := 0, head := none, lastDue := 0,
    seqCounter := 0, cuesRetired := 0, trail := [], pendingNext := none, reread := .absent }

/-- The kinds of access a lane makes (R29). -/
inductive LaneAccessKind
  | status
  | header
  | cue
  deriving DecidableEq, Repr

/-- The access the Loader has presented to the Memory Port: its lane, kind and segment. -/
structure LaneAccess where
  lane : LaneId
  kind : LaneAccessKind
  segment : Word
  deriving DecidableEq, Repr

/-- The Loader: the lanes, the lane its rotation begins with (R29), and its access in progress. -/
structure Loader where
  lanes : Vector Lane 4
  nextLane : LaneId
  access : Option LaneAccess
  deriving DecidableEq, Repr

/-! ## The Converter (Chapter 5) -/

/-- Power states (Table 5-2). -/
inductive PowerState
  | off
  | warming
  | ready
  | converting
  | settling
  deriving DecidableEq, Repr

/-- Closing causes (Table 5-1). -/
inductive ClosingCause
  | sessionEnd
  | fault
  deriving DecidableEq, Repr

/-- A conversion request (R112). -/
structure ConvRequest where
  input : InputId
  source : Source
  tag : Half
  deriving DecidableEq, Repr

/-- The conversion in flight (R112): its request, its start tick, the reference it is made against, and
the index of its free value (assumption log 7). -/
structure Conversion where
  request : ConvRequest
  start : Tick
  ref : Reference
  index : Nat
  deriving DecidableEq, Repr

/-- The state of the Converter (Table 5-1). The end tick is kept as a Nat: start tick plus length,
formed without loss (R106). `samples` is the model's own count of conversions begun (log 7). -/
structure Converter where
  power : PowerState
  current : Reference
  pendingRef : Option Reference
  /-- Oldest first. -/
  queue : List ConvRequest
  inFlight : Option Conversion
  endTick : Option Nat
  closing : Option ClosingCause
  samples : Nat
  deriving DecidableEq, Repr

/-- The Converter after a device reset or a successful PREPARE (R123). -/
def Converter.reset (samples : Nat) : Converter :=
  { power := .off, current := .supply, pendingRef := none, queue := [], inFlight := none, endTick := none,
    closing := none, samples := samples }

/-! ## The Result Writer (Chapter 6) -/

/-- Writer states (Table 6-3). -/
inductive WriterState
  | idle
  | opened
  | starved
  | done
  deriving DecidableEq, Repr

/-- A close marker (R124): what settles its cue's outcome and report. `lateness` is absent for a cue
that was not late. -/
structure CloseMarker where
  lane : LaneId
  seq : Word
  tag : Half
  report : Bool
  time : Tick
  lateness : Option Half
  deriving DecidableEq, Repr

/-- An item of the result queue (R124). -/
inductive Item
  | record (rec : Rec)
  | closeMarker (marker : CloseMarker)
  | endMarker
  deriving DecidableEq, Repr

/-- The current page (Table 6-2). -/
structure Page where
  slot : SlotId
  address : Word
  size : Word
  nextFree : Nat
  records : Nat
  firstTick : Option Tick
  deriving DecidableEq, Repr

/-- A slot entry as the part reads it (Table 9-7): the fields it examines. -/
structure SlotEntry where
  state : Byte
  address : Word
  size : Word
  deriving DecidableEq, Repr

/-- Close causes (Table 6-5). -/
inductive CloseCause
  | full
  | deadline
  | cue
  | sessionEnd
  | aborted
  | fault
  deriving DecidableEq, Repr

/-- A decided close (R137): what the page header and the CLOSED write carry, and the close marker whose
outcome it settles. -/
structure Closing where
  cause : CloseCause
  seq : Word
  time : Tick
  lost : Word
  marker : Option CloseMarker
  deriving DecidableEq, Repr

/-- A slot that failed its checks, or a good slot, with its entry as read (R129, R130). -/
structure FailedSlot where
  slot : SlotId
  reason : RejectReason
  entry : SlotEntry
  deriving DecidableEq, Repr

structure GoodSlot where
  slot : SlotId
  entry : SlotEntry
  deriving DecidableEq, Repr

/-- What the writer's memory access in progress, or next to present, is (R128, R130 to R137). -/
inductive WriterTask
  | none
  /-- Reading the slot table; the entries read so far, slot 0 first. -/
  | table (entries : List SlotEntry)
  /-- Writing the first of `todo` REJECTED, then the rest, then taking `good`. -/
  | reject (todo : List FailedSlot) (good : Option GoodSlot)
  /-- Writing the slot FILLING. -/
  | fill (good : GoodSlot)
  /-- Writing the head record, of this length, into the page. -/
  | record (length : Nat)
  /-- Writing the fault record into the page. -/
  | faultRecord
  /-- Writing the page header of a close. -/
  | header (close : Closing)
  /-- Writing the slot CLOSED. -/
  | closed (close : Closing)
  deriving DecidableEq, Repr

/-- Fault codes of a fatal fault (Table 7-2). -/
inductive FatalFault
  | resultPathError
  | timebaseEnd
  deriving DecidableEq, Repr

/-- The FAULT record (R142). -/
structure FaultRecord where
  code : FatalFault
  secondary : Bool
  address : Word
  tick : Tick
  deriving DecidableEq, Repr

/-- The state of the Result Writer (Table 6-2), with what the rules of sections 6.4 to 6.7 imply. -/
structure Writer where
  state : WriterState
  /-- Oldest first. -/
  queue : List Item
  page : Option Page
  lost : Word
  closeSeq : Word
  reread : Reread
  starveCount : Nat
  faultRecord : Option FaultRecord
  pathFailed : Bool
  task : WriterTask
  /-- The end marker has been reached (R140). -/
  endTaken : Bool
  /-- An abort has been taken (R141). -/
  aborting : Bool
  /-- The flush of a wind-down is in progress (R142). -/
  flushing : Bool
  /-- The deadline expired while a record write was outstanding (R136). -/
  deadlineDue : Bool
  deriving DecidableEq, Repr

/-- The Result Writer after a device reset or a successful PREPARE (R145). -/
def Writer.reset : Writer :=
  { state := .idle, queue := [], page := none, lost := 0, closeSeq := 0, reread := .absent,
    starveCount := 0, faultRecord := none, pathFailed := false, task := .none, endTaken := false,
    aborting := false, flushing := false, deadlineDue := false }

/-! ## The Memory Port (Chapter 8) -/

/-- The memory window [base, limit) (R169). -/
structure Window where
  base : Word
  limit : Word
  deriving DecidableEq, Repr

/-- A request of a requester (R168): address, length, and for a write its bytes. -/
structure Request where
  addr : Word
  len : Nat
  write : Bool
  data : List Byte
  deriving DecidableEq, Repr

/-- The request of one requester (Table 8-1): none, waiting for a grant, or outstanding with its issue
number and grant time (a reading of the reference clock). -/
inductive PortRequest
  | none
  | waiting (rq : Request)
  | outstanding (rq : Request) (issue : Byte) (granted : Nat)
  deriving DecidableEq, Repr

/-- Which of the Loader and the Result Writer was granted last (Table 8-1). -/
inductive LastServed
  | loader
  | writer
  deriving DecidableEq, Repr

/-- The state of the Memory Port (Table 8-1). Reset pending has its home in Engine Control. -/
structure Port where
  window : Option Window
  path : Option Requester
  loader : PortRequest
  writer : PortRequest
  engine : PortRequest
  loaderIssue : Byte
  writerIssue : Byte
  engineIssue : Byte
  lastServed : LastServed
  /-- The quiet interval, when it runs, with the reference clock reading it runs from (R177). -/
  quiet : Option Nat
  deriving DecidableEq, Repr

/-- The port after a reset (R176, R177). -/
def Port.reset (quiet : Option Nat) : Port :=
  { window := none, path := none, loader := .none, writer := .none, engine := .none, loaderIssue := 0,
    writerIssue := 0, engineIssue := 0, lastServed := .writer, quiet := quiet }

/-! ## Engine Control and the timebase (Chapter 7) -/

/-- Engine states (Table 7-1). -/
inductive EngineState
  | off
  | preparing
  | armed
  | running
  | draining
  | ended
  | faulted
  deriving DecidableEq, Repr

inductive CommandResult
  | none
  | accepted
  | refused
  | unknown
  deriving DecidableEq, Repr

inductive PrepareError
  | none
  | badFormat
  | badWindow
  | badDivider
  | badHorizon
  | badScan
  | badStartSource
  | badLane
  | busError
  | aborted
  deriving DecidableEq, Repr

inductive EndCause
  | none
  | stopCommand
  | endCue
  | notStarted
  | drainLoss
  | aborted
  deriving DecidableEq, Repr

/-- Engine Control's access in progress or next to present: the two control block reads of the read
phase (R149), a write of the end summary with the 128 bytes taken when it began (R164), or an access
whose answer is to be discarded (R159). -/
inductive EngineTask
  | none
  | readFirst
  | readSecond (first : BusData)
  | summary (write : Fin 3) (bytes : List Byte)
  | discard
  deriving DecidableEq, Repr

/-- The state of Engine Control (Table 7-2), with what sections 7.3 to 7.9 imply. -/
structure EngineControl where
  state : EngineState
  windDown : Bool
  session : Half
  cba : Word
  result : CommandResult
  prepError : PrepareError
  endCause : EndCause
  faultCode : Option FatalFault
  faultAddr : Word
  secondary : Bool
  resetPending : Bool
  lastStart : Level
  /-- The checks of PREPARE have passed: in PREPARING, the initial fetch (R152). -/
  checked : Bool
  /-- An ABORT has been accepted in PREPARING (R153). -/
  aborting : Bool
  task : EngineTask
  /-- The model's own: the control block read at the port is that of a preparation aborted while the read waited
  for its grant, so its answer is discarded (R153, R175; assumption log 27). -/
  staleRead : Bool
  /-- What the blocks have reported at the end of the session (R158, R159, R161). -/
  converterIdle : Bool
  loaderQuiet : Bool
  pathComplete : Bool
  /-- The end marker has been placed (R158). -/
  markerPlaced : Bool
  deriving DecidableEq, Repr

/-- Engine Control after a device reset (R167). -/
def EngineControl.reset : EngineControl :=
  { state := .off, windDown := false, session := 0, cba := 0, result := .none, prepError := .none,
    endCause := .none, faultCode := none, faultAddr := 0, secondary := false, resetPending := false,
    lastStart := .low, checked := false, aborting := false, task := .none, staleRead := false, converterIdle := false,
    loaderQuiet := false, pathComplete := false, markerPlaced := false }

/-- The timebase (R154). `scanCount` is the number of ticks since the last scan event, or since ARMED
was entered (R33). -/
structure Timebase where
  count : Tick
  runs : Bool
  divider : Nat
  scanCount : Nat
  deriving DecidableEq, Repr

/-- The timebase after a reset (R154). -/
def Timebase.reset : Timebase := { count := 0, runs := false, divider := 1, scanCount := 0 }

/-- Start sources (Table 9-4). -/
inductive StartSource
  | command
  | lineRise
  | lineFall
  deriving DecidableEq, Repr

/-- The session parameters in force beside the window and the divider (R152). -/
structure Params where
  horizon : Word
  scanPeriod : Word
  deadline : Word
  startSource : StartSource
  deriving DecidableEq, Repr

def Params.reset : Params := { horizon := 0, scanPeriod := 0, deadline := 0, startSource := .command }

/-! ## Register window and pins (Chapter 9, Table I-3) -/

/-- The stored registers of the window (Table 9-1); CONTROL and STATE store nothing of their own, and
TIME_LO is the timebase. `busRead` is the word the last TIME_LO read returned: a narrow read returns its addressed
bytes of it (R178). -/
structure RegisterWindow where
  base : Word
  alert : Byte
  enable : Byte
  timeHi : Half
  busRead : Word
  deriving DecidableEq, Repr

def RegisterWindow.reset : RegisterWindow := { base := 0, alert := 0, enable := 0, timeHi := 0, busRead := 0 }

/-- The pins and the reference clock. `tout` is the level each output line presents (R78). -/
structure Pins where
  tin : Vector Level 16
  start : Level
  tout : Vector Level 16
  /-- The device reset is in force: the RESET line is low, or the power-on reset has not finished. -/
  resetHeld : Bool
  /-- The latest reading of the reference clock, in periods of 10 ns. -/
  refClock : Nat
  deriving DecidableEq, Repr

def Pins.reset : Pins :=
  { tin := Vector.replicate 16 .low, start := .low, tout := Vector.replicate 16 .low, resetHeld := false,
    refClock := 0 }

/-! ## The whole part -/

/-- The state of the part, and the queue of the commands that wait, first in first out. -/
structure State where
  pending : List Instr
  eng : EngineControl
  tb : Timebase
  params : Params
  /-- The Calendar's entries in Calendar order (R14). -/
  cal : List Entry
  loader : Loader
  chans : Vector Channel 16
  /-- Link deliveries under way (R100, R101). -/
  links : List LinkDelivery
  conv : Converter
  wr : Writer
  port : Port
  win : RegisterWindow
  pins : Pins
  deriving DecidableEq, Repr

/-- The Loader after a reset (R50). -/
def Loader.reset : Loader := { lanes := Vector.replicate 4 Lane.off, nextLane := 0, access := none }

/-- The machine right after a device reset has ended (R167): every block at its device reset values,
the quiet interval of R177 running from reading 0 of the reference clock, nothing pending. -/
def State.reset : State :=
  { pending := [], eng := .reset, tb := .reset, params := .reset, cal := [], loader := .reset,
    chans := Vector.replicate 16 Channel.reset, links := [], conv := .reset 0, wr := .reset,
    port := .reset (some 0), win := .reset, pins := .reset }

end Sys2Proof.Machine
end

