-- ==== Sys2Proof/Machine/Ops.lean ====
section
/-! DEFINITION. Machine/Ops.lean: the shared operations over numbers, bytes and the parts of State. -/

namespace Sys2Proof.Machine

/-! ## Numbers and bytes -/

/-- A saturating count (Conventions): adds `n`, staying at the largest value (R125). -/
def satAdd (c : Word) (n : Nat) : Word :=
  if c.toNat + n < 2 ^ 32 then BitVec.ofNat 32 (c.toNat + n) else BitVec.allOnes 32

/-- A 16-bit value that saturates at 65535 (lateness, R5). -/
def satHalf (n : Nat) : Half := if n < 2 ^ 16 then BitVec.ofNat 16 n else BitVec.allOnes 16

/-- The `n` low bytes of a value, least significant first (Conventions: little-endian). -/
def le : Nat → {w : Nat} → BitVec w → List Byte
  | 0, _, _ => []
  | n + 1, _, v => v.setWidth 8 :: le n (v >>> 8)

/-- `n` bytes of 0 (R182: what the layouts do not assign is written as 0). -/
def zeros (n : Nat) : List Byte := List.replicate n 0

/-- The byte at an offset of a little-endian structure. -/
def byteAt {w : Nat} (d : BitVec w) (off : Nat) : Byte := d.extractLsb' (8 * off) 8

def halfAt {w : Nat} (d : BitVec w) (off : Nat) : Half := d.extractLsb' (8 * off) 16

def wordAt {w : Nat} (d : BitVec w) (off : Nat) : Word := d.extractLsb' (8 * off) 32

def tickAt {w : Nat} (d : BitVec w) (off : Nat) : Tick := d.extractLsb' (8 * off) 48

/-- All bits from an offset up are zero. -/
def zeroFrom {w : Nat} (d : BitVec w) (off : Nat) : Bool := d >>> (8 * off) == 0

/-- The opposite level. -/
def levelFlip : Level → Level
  | .low => .high
  | .high => .low

/-- The level a bit stands for: 1 is HIGH. -/
def levelOfBit (b : Bool) : Level := if b then .high else .low

/-- The bytes from `addr` on, `len` of them, lie in [base, limit) (R169, R150, R130). -/
def Window.holds (w : Window) (addr len : Nat) : Bool :=
  decide (w.base.toNat ≤ addr) && decide (addr + len ≤ w.limit.toNat)

/-- The same while no window may be in force: nothing lies in an absent window. -/
def windowHolds (w : Option Window) (addr len : Nat) : Bool :=
  match w with
  | some w => w.holds addr len
  | none => false

/-! ## Parts of State -/

/-- Now: the current value of the timebase (Conventions). -/
def State.now (s : State) : Tick := s.tb.count

/-- A command's effect: while the device reset is in force every block is held at its reset values, so
nothing has an effect (R167); else the effect `f`, in which an event whose conditions do not hold changes
nothing (assumption log 1). No command stops the part. -/
def act (s : State) (f : State → State) : Host.Outcome State Fault Refusal :=
  .next (if s.pins.resetHeld then s else f s)

def State.lane (s : State) (i : LaneId) : Lane := s.loader.lanes[i]

def State.setLane (s : State) (i : LaneId) (l : Lane) : State :=
  { s with loader := { s.loader with lanes := s.loader.lanes.set i.val l i.isLt } }

def State.chan (s : State) (i : ChanId) : Channel := s.chans[i]

def State.setChan (s : State) (i : ChanId) (c : Channel) : State :=
  { s with chans := s.chans.set i.val c i.isLt }

/-- Every channel changed by one function. -/
def State.mapChans (s : State) (f : ChanId → Channel → Channel) : State :=
  { s with chans := Vector.ofFn fun i : ChanId => f i s.chans[i] }

/-- The request a requester has at the port (Table 8-1). -/
def Port.request (p : Port) : Requester → PortRequest
  | .loader => p.loader
  | .writer => p.writer
  | .engine => p.engine

def Port.setRequest (p : Port) (r : Requester) (q : PortRequest) : Port :=
  match r with
  | .loader => { p with loader := q }
  | .writer => { p with writer := q }
  | .engine => { p with engine := q }

/-- The issue number of a requester's next transaction (Table 8-1). -/
def Port.issue (p : Port) : Requester → Byte
  | .loader => p.loaderIssue
  | .writer => p.writerIssue
  | .engine => p.engineIssue

def Port.setIssue (p : Port) (r : Requester) (n : Byte) : Port :=
  match r with
  | .loader => { p with loaderIssue := n }
  | .writer => { p with writerIssue := n }
  | .engine => { p with engineIssue := n }

def PortRequest.isNone : PortRequest → Bool
  | .none => true
  | .waiting _ => false
  | .outstanding _ _ _ => false

def PortRequest.isWaiting : PortRequest → Bool
  | .none => false
  | .waiting _ => true
  | .outstanding _ _ _ => false

def PortRequest.isOutstanding : PortRequest → Bool
  | .none => false
  | .waiting _ => false
  | .outstanding _ _ _ => true

/-- A request that waits for a grant is withdrawn: taken as not made (R175). -/
def PortRequest.withdrawn : PortRequest → PortRequest
  | .none => .none
  | .waiting _ => .none
  | .outstanding rq n t => .outstanding rq n t

/-- No transaction is outstanding at the port (R176). -/
def Port.quietBus (p : Port) : Bool :=
  !p.loader.isOutstanding && !p.writer.isOutstanding && !p.engine.isOutstanding

/-! ## Engine conditions -/

/-- The session is set up and has not ended: PREPARING once its checks have passed, ARMED, RUNNING and
DRAINING. Then ticks reach the channels (R54) and the START line is sampled (R156). -/
def State.sessionAlive (s : State) : Bool :=
  match s.eng.state with
  | .preparing => s.eng.checked
  | .armed | .running | .draining => true
  | .off | .ended | .faulted => false

/-- PREPARING in the initial fetch with no abort in progress (R152, R153). -/
def State.initialFetch (s : State) : Bool :=
  s.eng.state == .preparing && s.eng.checked && !s.eng.aborting

/-- The engine states in which cues are fetched and lane heads offered (R29, R39, Table 1-5). -/
def State.takesCues (s : State) : Bool :=
  s.initialFetch || s.eng.state == .armed || s.eng.state == .running

/-- ENDED or FAULTED with its end-of-session work still to finish. -/
def State.windingDown (s : State) : Bool :=
  (s.eng.state == .ended || s.eng.state == .faulted) && !s.eng.windDown

/-- OFF, or ENDED or FAULTED with wind-down complete set: where PREPARE (R147) and a write to BASE (R178)
are accepted. -/
def State.betweenSessions (s : State) : Bool :=
  s.eng.state == .off || ((s.eng.state == .ended || s.eng.state == .faulted) && s.eng.windDown)

/-- The latest reading of the reference clock, given the reading a command carries: readings never go
back (assumption log 8). -/
def State.clockAt (s : State) (reading : Nat) : Nat := max s.pins.refClock reading

def State.setClock (s : State) (reading : Nat) : State :=
  { s with pins := { s.pins with refClock := s.clockAt reading } }

def State.setResult (s : State) (r : CommandResult) : State :=
  { s with eng := { s.eng with result := r } }

end Sys2Proof.Machine
end

