-- ==== Sys2Proof/Machine/Operands.lean ====
section
/-! DEFINITION. Machine/Operands.lean: the memory formats of Chapter 9, read and written. Every
multi-byte field is little-endian; an offset is a byte offset. -/

namespace Sys2Proof.Machine

/-! ## Settings records (Table 9-12, R53) -/

def shapeOf (b : Byte) : Option Shape :=
  match b.toNat with
  | 0 => some .matching
  | 1 => some .wave
  | 2 => some .oneShot
  | 3 => some .capture
  | _ => none

def clockOf (b : Byte) : Option Clock :=
  match b.toNat with
  | 0 => some (.div 0)
  | 1 => some (.div 1)
  | 2 => some (.div 2)
  | 3 => some (.div 3)
  | 4 => some (.div 4)
  | 5 => some (.div 5)
  | 6 => some (.div 6)
  | 7 => some (.div 7)
  | 8 => some .edgeRise
  | 9 => some .edgeFall
  | 10 => some .edgeBoth
  | _ => none

def wrapSourceOf (b : Byte) : Option WrapSource :=
  match b.toNat with
  | 0 => some .period
  | 1 => some .action
  | _ => none

def inputEdgeOf (b : Byte) : Option InputEdge :=
  match b.toNat with
  | 0 => some .none
  | 1 => some .rise
  | 2 => some .fall
  | 3 => some .both
  | _ => none

def matchActionOf (b : Byte) : Option MatchAction :=
  match b.toNat with
  | 0 => some .none
  | 1 => some .low
  | 2 => some .high
  | 3 => some .toggle
  | _ => none

/-- LOW 0, HIGH 1. -/
def levelOf (b : Byte) : Option Level :=
  match b.toNat with
  | 0 => some .low
  | 1 => some .high
  | _ => none

def polarityOf (b : Byte) : Option Polarity :=
  match b.toNat with
  | 0 => some .activeHigh
  | 1 => some .activeLow
  | _ => none

def retriggerOf (b : Byte) : Option Retrigger :=
  match b.toNat with
  | 0 => some .ignore
  | 1 => some .extend
  | _ => none

/-- NO 0, YES 1. -/
def rearmOf (b : Byte) : Option Bool :=
  match b.toNat with
  | 0 => some false
  | 1 => some true
  | _ => none

/-- A link field from its kind and number: a number outside its kind's range is a value outside those
listed, a non-zero number with kind NONE included (below Table 9-12). -/
def linkOf (kind number : Byte) : Option Link :=
  match kind.toNat with
  | 0 => if number = 0 then some .none else none
  | 1 => if h : number.toNat < 10 then some (.convert ⟨number.toNat, h⟩) else none
  | 2 => if h : number.toNat < 16 then some (.fire ⟨number.toNat, h⟩) else none
  | _ => none

/-- Every field of a settings record holds a listed value (R53, condition 1). -/
def readSettings (r : BitVec 160) : Option Settings := do
  let shape ← shapeOf (byteAt r 0x00)
  let clock ← clockOf (byteAt r 0x01)
  let wrapSource ← wrapSourceOf (byteAt r 0x06)
  let inputEdge ← inputEdgeOf (byteAt r 0x07)
  let matchAction ← matchActionOf (byteAt r 0x08)
  let initialLevel ← levelOf (byteAt r 0x09)
  let polarity ← polarityOf (byteAt r 0x0A)
  let restLevel ← levelOf (byteAt r 0x0B)
  let retrigger ← retriggerOf (byteAt r 0x0C)
  let rearm ← rearmOf (byteAt r 0x0D)
  let linkAction ← linkOf (byteAt r 0x0E) (byteAt r 0x0F)
  let linkWrap ← linkOf (byteAt r 0x10) (byteAt r 0x11)
  pure { shape, clock, period := halfAt r 0x02, action := halfAt r 0x04, wrapSource, inputEdge, matchAction,
         initialLevel, polarity, restLevel, retrigger, rearm, linkAction, linkWrap }

def Clock.isEdge : Clock → Bool
  | .div _ => false
  | .edgeRise | .edgeFall | .edgeBoth => true

/-- Conditions 2 and 3 of R53 do not hold: the marks are legal for the shape. -/
def Settings.marksLegal (c : Settings) : Bool :=
  match c.shape with
  | .oneShot => c.action != 0
  | .matching | .wave | .capture => !(c.wrapSource == .action && c.action == 0)

/-- Conditions 4, 5 and 6 of R53 do not hold. -/
def Settings.inputLegal (c : Settings) : Bool :=
  match c.shape with
  | .capture => !c.clock.isEdge
  | .oneShot => !(c.clock.isEdge && c.inputEdge != .none)
  | .matching | .wave => c.inputEdge == .none

/-- Condition 7 of R53 does not hold: no link fires the channel itself. -/
def Settings.linksLegal (c : Settings) (own : ChanId) : Bool :=
  c.linkAction != .fire own && c.linkWrap != .fire own

/-- The whole of R53 for settings whose fields are in range. -/
def Settings.legal (c : Settings) (own : ChanId) : Bool :=
  c.marksLegal && c.inputLegal && c.linksLegal own

/-- The settings a SET cue gives, when its record is legal for the channel (R53, R62). -/
def legalSettings (own : ChanId) (r : BitVec 160) : Option Settings :=
  match readSettings r with
  | some c => if c.legal own then some c else none
  | none => none

/-! ## Cues (Tables 9-9 to 9-11, R2) -/

/-- Parameters of a STAGE cue: bytes 00H to 05H, the rest zero, a mark zero when not present, at least
one present (R2, Table 9-11). -/
def stageMarks (p : BitVec 160) : Option Marks :=
  let flags := byteAt p 0x00
  let hasP := flags.getLsbD 0
  let hasA := flags.getLsbD 1
  if (flags >>> 2 == 0) && byteAt p 0x01 == 0 && zeroFrom p 0x06 && (hasP || hasA)
      && (hasP || halfAt p 0x02 == 0) && (hasA || halfAt p 0x04 == 0) then
    some { period := if hasP then some (halfAt p 0x02) else none,
           action := if hasA then some (halfAt p 0x04) else none }
  else none

/-- A channel verb with its parameters (Tables 9-10, 9-11). -/
def chanVerbOf (verb : Byte) (p : BitVec 160) : Option ChanVerb :=
  match verb.toNat with
  | 1 => if zeroFrom p 0x12 then some (.set p) else none
  | 2 => if p = 0 then some .start else none
  | 3 => if p = 0 then some .stop else none
  | 4 => if p = 0 then some .pause else none
  | 5 => if p = 0 then some .resume else none
  | 6 => (stageMarks p).map .stage
  | 7 => if p = 0 then some .fire else none
  | 8 => if p = 0 then some .snapshot else none
  | _ => none

def convVerbOf (verb : Byte) (p : BitVec 160) : Option ConvVerb :=
  match verb.toNat with
  | 1 => if p = 0 then some .powerOn else none
  | 2 => if p = 0 then some .powerOff else none
  | 3 => if p = 0 then some (.reference .supply) else if p = 1 then some (.reference .vrefPin) else none
  | 4 => if p >>> 10 == 0 && p != 0 then some (.convert (p.setWidth 10)) else none
  | _ => none

def engVerbOf (verb : Byte) (payloadPresent : Bool) (p : BitVec 160) : Option EngVerb :=
  match verb.toNat with
  | 1 => if zeroFrom p 0x10 && (payloadPresent || p == 0) then some (.note (p.setWidth 128)) else none
  | 2 => if p = 0 then some .closePage else none
  | 3 => if p = 0 then some .endCue else none
  | _ => none

/-- Target and verb: 0 to 15 the channel, 16 the Converter, 17 Engine Control (Table 1-2). -/
def actionOf (target verb : Byte) (payloadPresent : Bool) (p : BitVec 160) : Option Action :=
  if h : target.toNat < 16 then (chanVerbOf verb p).map (.channel ⟨target.toNat, h⟩)
  else if target.toNat = 16 then (convVerbOf verb p).map .converter
  else if target.toNat = 17 then (engVerbOf verb payloadPresent p).map .engine
  else none

/-- The verb is NOTE: the only one that may carry the payload present flag (R2). -/
def Action.isNote : Action → Bool
  | .engine (.note _) => true
  | _ => false

/-- The cue of a 32-byte cue place, when it is well formed (R2); otherwise it is MALFORMED. -/
def readCue (d : BusData) : Option Cue :=
  let flags := byteAt d 0x0A
  let payloadPresent := flags.getLsbD 2
  match actionOf (byteAt d 0x06) (byteAt d 0x07) payloadPresent (d.extractLsb' (8 * 0x0C) 160) with
  | some action =>
    if flags >>> 3 == 0 && byteAt d 0x0B == 0 && (!payloadPresent || action.isNote) then
      some { due := tickAt d 0x00, action, tag := halfAt d 0x08,
             late := if flags.getLsbD 0 then .skip else .runLate,
             report := flags.getLsbD 1, payloadPresent }
    else none
  | none => none

/-- The action code of a CUE_REPORT (R184). -/
def Action.code : Action → Byte
  | .channel ch verb =>
    BitVec.ofNat 8 (8 * ch.val + (match verb with
      | .set _ => 0 | .start => 1 | .stop => 2 | .pause => 3 | .resume => 4 | .stage _ => 5 | .fire => 6
      | .snapshot => 7))
  | .converter verb =>
    match verb with
    | .powerOn => 0x80 | .powerOff => 0x81 | .reference _ => 0x82 | .convert _ => 0x83
  | .engine verb =>
    match verb with
    | .note _ => 0x88 | .closePage => 0x89 | .endCue => 0x8A

/-! ## Segment headers (Table 9-8) and the status write -/

structure SegmentHeader where
  fill : Nat
  finished : Bool
  next : Word
  deriving DecidableEq, Repr

/-- Fill, bit 0 of finished, and next; nothing else of the header is examined (R26). -/
def readHeader (d : BusData) : SegmentHeader :=
  { fill := (byteAt d 0x00).toNat, finished := (byteAt d 0x01).getLsbD 0, next := wordAt d 0x04 }

/-- The part's status write: 00000001H at 08H of the header. -/
def statusWrite (segment : Word) : Request :=
  { addr := segment + 0x08, len := 4, write := true, data := le 4 (1 : Word) }

def headerRead (segment : Word) : Request := { addr := segment, len := 32, write := false, data := [] }

/-- Cue place i starts 32 + 32 i bytes into the segment (section 2.1.1). -/
def cueRead (segment : Word) (place : Nat) : Request :=
  { addr := segment + BitVec.ofNat 32 (32 + 32 * place), len := 32, write := false, data := [] }

/-! ## The control block (Tables 9-4, 9-5) and the checks of R150 -/

/-- What the checks of R150 leave when they pass: everything the session puts in force (R152). -/
structure SessionSetup where
  window : Window
  divider : Nat
  params : Params
  startTime : Tick
  restLevels : Half
  /-- For each lane: enabled, and its first segment. -/
  lanes : Vector (Bool × Word) 4
  deriving DecidableEq, Repr

/-- The lane descriptor of lane i at 040H + 16 i: enabled, first segment address. -/
def laneDescriptor (cb : BitVec 1024) (i : LaneId) : Word × Word :=
  (wordAt cb (0x40 + 16 * i.val), wordAt cb (0x44 + 16 * i.val))

def startSourceOf (b : Byte) : Option StartSource :=
  match b.toNat with
  | 0 => some .command
  | 1 => some .lineRise
  | 2 => some .lineFall
  | _ => none

def controlWindow (cb : BitVec 1024) : Window := { base := wordAt cb 0x20, limit := wordAt cb 0x24 }

/-- A lane descriptor passes the BAD_LANE check of Table 7-4. -/
def laneDescriptorGood (w : Window) (d : Word × Word) : Bool :=
  d.1 == 0 || (d.1 == 1 && d.2.toNat % 2048 == 0 && w.holds d.2.toNat 2048)

/-- The window passes the BAD_WINDOW check of Table 7-4. -/
def windowGood (w : Window) (cba : Word) : Bool :=
  w.base.toNat % 4096 == 0 && w.limit.toNat % 4096 == 0 && decide (w.base.toNat < w.limit.toNat)
    && w.holds cba.toNat 512

/-- The checks of R150 in the order of Table 7-4, over the first 128 bytes of the control block at
`cba`: the first that fails gives the prepare error. -/
def prepareChecks (cba : Word) (cb : BitVec 1024) : Except PrepareError SessionSetup :=
  let w := controlWindow cb
  let divider := (halfAt cb 0x02).toNat
  let horizon := wordAt cb 0x10
  let scan := wordAt cb 0x14
  if halfAt cb 0x00 ≠ 1 then .error .badFormat
  else if !windowGood w cba then .error .badWindow
  else if divider < 1 ∨ 1024 < divider then .error .badDivider
  else if horizon = 0 then .error .badHorizon
  else if scan = 0 ∨ 16777215 < scan.toNat then .error .badScan
  else
    match startSourceOf (byteAt cb 0x04) with
    | none => .error .badStartSource
    | some src =>
      if (List.finRange 4).all (fun i => laneDescriptorGood w (laneDescriptor cb i)) then
        .ok { window := w, divider, startTime := tickAt cb 0x08, restLevels := halfAt cb 0x1C,
              params := { horizon, scanPeriod := scan, deadline := wordAt cb 0x18, startSource := src },
              lanes := Vector.ofFn fun i : LaneId =>
                ((laneDescriptor cb i).1 == 1, (laneDescriptor cb i).2) }
      else .error .badLane

/-- The two reads of the read phase (R149). -/
def controlRead (cba : Word) (second : Bool) : Request :=
  { addr := if second then cba + 64 else cba, len := 64, write := false, data := [] }

/-! ## The slot table (Table 9-7) -/

/-- Slot i lies at 100H + 16 i of the control block. -/
def slotAddress (cba : Word) (slot : SlotId) : Word := cba + BitVec.ofNat 32 (0x100 + 16 * slot.val)

/-- The read of the slot table that follows the entries read so far: four whole entries (R129). -/
def slotTableRead (cba : Word) (entriesRead : Nat) : Request :=
  { addr := cba + BitVec.ofNat 32 (0x100 + 16 * entriesRead), len := 64, write := false, data := [] }

/-- Entry k of the four entries of one slot table read. -/
def slotEntryAt (d : BusData) (k : Nat) : SlotEntry :=
  { state := byteAt d (16 * k), address := wordAt d (16 * k + 4), size := wordAt d (16 * k + 8) }

def fourEntries (d : BusData) : List SlotEntry :=
  [slotEntryAt d 0, slotEntryAt d 1, slotEntryAt d 2, slotEntryAt d 3]

/-- Slot states the part writes. -/
inductive WrittenSlotState
  | filling
  | closed (records : Nat) (seq : Word)
  | rejected (reason : RejectReason)
  deriving DecidableEq, Repr

def rejectCode : RejectReason → Byte
  | .badAlign => 1
  | .badSize => 2
  | .outsideWindow => 3

/-- The 16 bytes of a slot entry write: the whole entry, with the address and size as read (R129). That a CLOSED write
carries reject reason none (0) is the model's reading (assumption log 37). -/
def slotEntryBytes (st : WrittenSlotState) (address size : Word) : List Byte :=
  match st with
  | .filling => [2, 0] ++ le 2 (0 : Half) ++ le 4 address ++ le 4 size ++ le 4 (0 : Word)
  | .closed records seq =>
    [3, 0] ++ le 2 (BitVec.ofNat 16 records) ++ le 4 address ++ le 4 size ++ le 4 seq
  | .rejected reason =>
    [4, rejectCode reason] ++ le 2 (0 : Half) ++ le 4 address ++ le 4 size ++ le 4 (0 : Word)

def slotWrite (cba : Word) (slot : SlotId) (st : WrittenSlotState) (address size : Word) : Request :=
  { addr := slotAddress cba slot, len := 16, write := true, data := slotEntryBytes st address size }

/-! ## Records (Tables 9-14, 9-15) -/

def levelBit : Level → Nat
  | .low => 0
  | .high => 1

def modeCode : ChanMode → Nat
  | .unset => 0
  | .stopped => 1
  | .running => 2
  | .paused => 3
  | .armed => 4
  | .pulsing => 5

def outcomeCode : CueOutcome → Nat
  | .done => 0
  | .doneReplacing => 1
  | .already => 2
  | .ignored => 3
  | .empty => 4
  | .doneLate => 5
  | .skippedLate => 6
  | .partly => 7
  | .refusedState => 8
  | .refusedSettings => 9
  | .refusedQueueFull => 10
  | .refusedConverterOff => 11
  | .malformed => 12
  | .order => 13

def dropCode : DropCause → Byte
  | .queueFull => 1
  | .converterOff => 2
  | .powerOff => 3
  | .sessionEnd => 4
  | .fault => 5

def laneFaultCode : LaneFaultCause → Byte
  | .readError => 1
  | .fillBackwards => 2
  | .fillRange => 3
  | .badNext => 4
  | .writeError => 5
  | .sequenceLimit => 6

def laneEventCode : LaneEvent → Nat
  | .fault _ => 1
  | .ended => 2
  | .cancelled => 3

def laneEventCause : LaneEvent → Byte
  | .fault c => laneFaultCode c
  | .ended => 0
  | .cancelled => 0

/-- Byte 02H of SAMPLE and DROP: input in bits 3 to 0, source in bit 4, event kind in bit 5; 0 there for a cue, which has
no event kind (the model's reading, assumption log 45). -/
def sourceByte (input : InputId) : Source → Byte
  | .cue _ _ => BitVec.ofNat 8 input.val
  | .link _ .action => BitVec.ofNat 8 (input.val + 16)
  | .link _ .wrap => BitVec.ofNat 8 (input.val + 16 + 32)

/-- Byte 03H of SAMPLE and DROP: the lane, or the channel. -/
def sourceOwner : Source → Byte
  | .cue lane _ => BitVec.ofNat 8 lane.val
  | .link ch _ => BitVec.ofNat 8 ch.val

/-- Bytes 08H to 0BH of SAMPLE and DROP: the lane sequence number; 0 for a link. -/
def sourceSeq : Source → Word
  | .cue _ seq => seq
  | .link _ _ => 0

/-- The bytes of a record (Table 9-14). A tick time is written as its low 32 bits (R183). -/
def recBytes : Rec → List Byte
  | .capture ch edge counter tag wraps tick =>
    [0x01, 0x10, BitVec.ofNat 8 (ch.val + (match edge with | .rise => 0 | .fall => 16)), 0]
      ++ le 2 counter ++ le 2 tag ++ le 4 wraps ++ le 4 tick
  | .snapshot ch mode output staged counter tag wraps tick =>
    [0x02, 0x10, BitVec.ofNat 8 ch.val,
      BitVec.ofNat 8 (modeCode mode + 16 * levelBit output + (if staged then 32 else 0))]
      ++ le 2 counter ++ le 2 tag ++ le 4 wraps ++ le 4 tick
  | .sample input source value tag start =>
    [0x03, 0x10, sourceByte input source, sourceOwner source]
      ++ le 2 (value.setWidth 16) ++ le 2 tag ++ le 4 (sourceSeq source) ++ le 4 start
  | .drop input source cause tag tick =>
    [0x04, 0x10, sourceByte input source, sourceOwner source]
      ++ [dropCode cause, 0] ++ le 2 tag ++ le 4 (sourceSeq source) ++ le 4 tick
  | .cueReport r =>
    [0x05, 0x10, BitVec.ofNat 8 (r.lane.val + 4 * outcomeCode r.outcome), r.code]
      ++ le 4 r.seq ++ le 4 r.time ++ le 2 r.detail ++ le 2 r.tag
  | .laneEvent lane event segment count tick =>
    [0x06, 0x10, BitVec.ofNat 8 (lane.val + 4 * laneEventCode event), laneEventCause event]
      ++ le 4 segment ++ le 4 count ++ le 4 tick
  | .note tag none tick =>
    [0x07, 0x10] ++ le 2 tag ++ zeros 8 ++ le 4 tick
  | .note tag (some payload) tick =>
    [0x07, 0x20] ++ le 2 tag ++ zeros 8 ++ le 4 tick ++ le 16 payload
  | .slotReject slot reason tick =>
    [0x08, 0x10, BitVec.ofNat 8 slot.val, rejectCode reason] ++ zeros 8 ++ le 4 tick

/-- The length of a record: 32 bytes for a NOTE with payload, 16 for any other (R127). -/
def recLength : Rec → Nat
  | .note _ (some _) _ => 32
  | .note _ none _ => 16
  | .capture .. | .snapshot .. | .sample .. | .drop .. | .cueReport _ | .laneEvent .. | .slotReject .. => 16

def FatalFault.code : FatalFault → Nat
  | .resultPathError => 1
  | .timebaseEnd => 2

/-- The 32 bytes of the FAULT record; its tick is written in full (R183). -/
def FaultRecord.bytes (f : FaultRecord) : List Byte :=
  [0x09, 0x20, BitVec.ofNat 8 f.code.code, if f.secondary then 1 else 0] ++ le 4 f.address ++ le 6 f.tick ++ zeros 18

/-! ## Page headers (Table 9-13) -/

def CloseCause.code : CloseCause → Byte
  | .full => 1
  | .deadline => 2
  | .cue => 3
  | .sessionEnd => 4
  | .aborted => 5
  | .fault => 6

/-- The 32 bytes of the page header of a close (R137). A page that is closed holds a record, so its tick
of first record is present. -/
def pageHeaderBytes (session : Half) (p : Page) (c : Closing) : List Byte :=
  le 2 session ++ [BitVec.ofNat 8 p.slot.val, c.cause.code] ++ le 4 c.seq ++ le 4 (BitVec.ofNat 32 p.records)
    ++ le 4 (BitVec.ofNat 32 p.nextFree) ++ le 4 c.lost ++ le 6 (p.firstTick.getD 0) ++ le 6 c.time

/-! ## The end summary (Table 9-6, R163) -/

def LaneState.code : LaneState → Byte
  | .off => 0
  | .active => 1
  | .waiting => 2
  | .blocked => 3
  | .ended => 4
  | .faulted => 5
  | .stopped => 6

def EndCause.code : EndCause → Nat
  | .none => 0
  | .stopCommand => 1
  | .endCue => 2
  | .notStarted => 3
  | .drainLoss => 4
  | .aborted => 5

/-- The end cause, or for a FAULTED session the fault code with bit 7 set. -/
def terminationCode (e : EngineControl) : Byte :=
  match e.state, e.faultCode with
  | .faulted, some f => BitVec.ofNat 8 (0x80 + f.code)
  | _, _ => BitVec.ofNat 8 e.endCause.code

def laneSummaryBytes (l : Lane) : List Byte :=
  [l.state.code, 0, 0, 0] ++ le 4 l.seqCounter ++ le 4 l.cuesRetired

/-- The 128 bytes of the end summary area, 080H to 0FFH, with the valid word last (R163). The last close sequence number
is the writer's counter, also where the close that raised it did not complete (the model's reading, assumption log 43). -/
def summaryBytes (s : State) : List Byte :=
  [terminationCode s.eng, if s.eng.secondary then 1 else 0] ++ le 2 s.eng.session ++ le 4 s.eng.faultAddr
    ++ le 6 s.tb.count ++ zeros 2 ++ le 4 s.wr.closeSeq ++ le 4 s.wr.lost
    ++ laneSummaryBytes (s.lane 0) ++ laneSummaryBytes (s.lane 1) ++ laneSummaryBytes (s.lane 2)
    ++ laneSummaryBytes (s.lane 3) ++ zeros 52 ++ le 4 (s.eng.session.setWidth 32)

/-- The three writes of R164: 080H to 0BFH, 0C0H to 0FBH, then the valid word. -/
def summaryWrite (cba : Word) (k : Fin 3) (bytes : List Byte) : Request :=
  match k with
  | 0 => { addr := cba + 0x80, len := 64, write := true, data := bytes.take 64 }
  | 1 => { addr := cba + 0xC0, len := 60, write := true, data := (bytes.drop 64).take 60 }
  | 2 => { addr := cba + 0xFC, len := 4, write := true, data := bytes.drop 124 }

end Sys2Proof.Machine
end

