-- ==== Sys2Proof/Machine/Flags.lean ====
section
/-! DEFINITION. Machine/Flags.lean: alert bits, INT, the fields of STATE, and what a read of the register
window returns (section 9.1). -/

namespace Sys2Proof.Machine

/-- The eight alerts (Table 9-3). -/
inductive Alert
  | page
  | starve
  | late
  | refuse
  | lane
  | ended
  | fault
  | prep
  deriving DecidableEq, Repr

/-- The bit of ALERT an alert stands in, as a mask (Table 9-3). -/
def Alert.mask : Alert → Byte
  | .page => 0x01
  | .starve => 0x02
  | .late => 0x04
  | .refuse => 0x08
  | .lane => 0x10
  | .ended => 0x20
  | .fault => 0x40
  | .prep => 0x80

/-- Setting an alert bit; a bit already 1 stays 1 (R180). -/
def State.raise (s : State) (a : Alert) : State :=
  { s with win := { s.win with alert := s.win.alert ||| a.mask } }

/-- INT is asserted while some bit is 1 in both ALERT and ALERT_ENABLE (R180). -/
def State.int (s : State) : Bool := s.win.alert &&& s.win.enable != 0

/-! ## STATE (Table 9-2, R179) -/

def EngineState.code : EngineState → Nat
  | .off => 0
  | .preparing => 1
  | .armed => 2
  | .running => 3
  | .draining => 4
  | .ended => 5
  | .faulted => 6

def CommandResult.code : CommandResult → Nat
  | .none => 0
  | .accepted => 1
  | .refused => 2
  | .unknown => 3

def PrepareError.code : PrepareError → Nat
  | .none => 0
  | .badFormat => 1
  | .badWindow => 2
  | .badDivider => 3
  | .badHorizon => 4
  | .badScan => 5
  | .badStartSource => 6
  | .badLane => 7
  | .busError => 8
  | .aborted => 9

def faultCodeField : Option FatalFault → Nat
  | none => 0
  | some f => f.code

def boolBit (b : Bool) : Nat := if b then 1 else 0

/-- The word a read of STATE returns. -/
def State.stateWord (s : State) : Word :=
  BitVec.ofNat 32 (s.eng.state.code + 2 ^ 3 * boolBit s.eng.windDown + 2 ^ 4 * s.eng.result.code
    + 2 ^ 6 * boolBit s.eng.secondary + 2 ^ 7 * boolBit (s.wr.state == .starved)
    + 2 ^ 8 * s.eng.prepError.code + 2 ^ 12 * s.eng.endCause.code + 2 ^ 16 * faultCodeField s.eng.faultCode)

/-- TIME_LO: bits 31 to 0 of the timebase (R181). -/
def State.timeLo (s : State) : Word := s.tb.count.setWidth 32

/-- The register at word `k` of the window, as a read returns it (Table 9-1, R178): CONTROL reads 0, and
so does offset 1CH. -/
def State.registerWord (s : State) (k : Nat) : Word :=
  match k with
  | 0 => s.win.base
  | 2 => s.stateWord
  | 3 => s.win.alert.setWidth 32
  | 4 => s.win.enable.setWidth 32
  | 5 => s.timeLo
  | 6 => s.win.timeHi.setWidth 32
  | _ => 0

/-- The `bytes` bytes of a word from byte `first` on, lowest first (R178). -/
def addressedBytes (w : Word) (first bytes : Nat) : Word := (w >>> (8 * first)) &&& BitVec.ofNat 32 (2 ^ (8 * bytes) - 1)

/-- What a read of `bytes` bytes at an offset of the window returns: the addressed bytes of the word
(R178). A read whose bytes do not all lie in one word returns those of the word its offset lies in (the model's choice,
assumption log 38). Only a read of TIME_LO has an effect besides, whatever its width (TIME_LO_READ). -/
def State.readRegister (s : State) (offset : BitVec 5) (bytes : Nat) : Word :=
  addressedBytes (s.registerWord (offset.toNat / 4)) (offset.toNat % 4) bytes

end Sys2Proof.Machine
end

