-- ==== Sys2Proof/Machine/Channels.lean ====
section
/-! DEFINITION. Machine/Channels.lean: what one channel does at a tick arrival, a clock event, a trigger, a
cue's verb and the session stop (Chapters 3 and 4). Each function is about one channel alone. -/

namespace Sys2Proof.Machine

/-! ## Levels and limits -/

/-- The active level of a polarity (R78). -/
def Polarity.active : Polarity → Level
  | .activeHigh => .high
  | .activeLow => .low

/-- The inactive level of a polarity (R78). -/
def Polarity.inactive : Polarity → Level
  | .activeHigh => .low
  | .activeLow => .high

/-- The wrap limit of a channel that wraps (R58): P with 0 for 65536, or A + 1; a ONE_SHOT channel has
none. -/
def Settings.wrapLimit (c : Settings) : Option Nat :=
  match c.shape with
  | .oneShot => none
  | .matching | .wave | .capture =>
    match c.wrapSource with
    | .period => some (if c.period = 0 then 65536 else c.period.toNat)
    | .action => some (c.action.toNat + 1)

/-- The level a WAVE channel drives at START and at a wrap (R82). -/
def Settings.waveStart (c : Settings) : Level :=
  if c.action = 0 then c.polarity.inactive else c.polarity.active

/-- The output level START sets (R63, step 4). -/
def Settings.startLevel (c : Settings) : Level :=
  match c.shape with
  | .matching => c.initialLevel
  | .wave => c.waveStart
  | .oneShot => c.polarity.inactive
  | .capture => c.restLevel

/-- The ticks of a divider clock event (R55); none for an edge clock. -/
def Clock.divisor : Clock → Option Nat
  | .div k => some (2 ^ k.val)
  | .edgeRise | .edgeFall | .edgeBoth => none

/-- An edge clock selects this edge (R56). -/
def Clock.selects : Clock → Edge → Bool
  | .edgeRise, .rise => true
  | .edgeFall, .fall => true
  | .edgeBoth, _ => true
  | _, _ => false

/-- The input edge setting selects this edge (R86, R96). -/
def InputEdge.selects : InputEdge → Edge → Bool
  | .rise, .rise => true
  | .fall, .fall => true
  | .both, _ => true
  | _, _ => false

/-! ## Staged marks -/

/-- The active settings with marks put in force; a mark not given keeps its active value (R69, R70). -/
def Settings.withMarks (c : Settings) (m : Marks) : Settings :=
  { c with period := m.period.getD c.period, action := m.action.getD c.action }

/-- Taking the staged marks, if present (R70). -/
def Channel.takeMarks (c : Channel) : Channel :=
  match c.staged, c.settings with
  | some m, some st => { c with settings := some (st.withMarks m), staged := none }
  | _, _ => c

/-! ## Counting -/

/-- The channel is counting at a tick arrival at time `now` (R57). -/
def Channel.counting (c : Channel) (now : Tick) : Bool :=
  (c.mode == .running || c.mode == .pulsing) &&
    (match c.restart with
     | some t => decide (t.toNat < now.toNat)
     | none => true)

/-- The divider phase after a counted tick, and whether the tick brings a clock event (R55, R56). -/
def Channel.clock (c : Channel) (st : Settings) (edge : Option Edge) : Channel × Bool :=
  match st.clock.divisor with
  | some n => if c.phase + 1 < n then ({ c with phase := c.phase + 1 }, false) else ({ c with phase := 0 }, true)
  | none =>
    match edge with
    | some e => (c, st.clock.selects e)
    | none => (c, false)

/-- Steps 1 to 3 of a wrap event, with the counter already 0 (R60). -/
def Channel.wrap (c : Channel) : Channel :=
  let c := { c with counter := 0, wrapCount := c.wrapCount + 1 }
  let c := c.takeMarks
  match c.settings with
  | some st => if st.shape = .wave then { c with output := st.waveStart } else c
  | none => c

/-- Step 1 of an A-match event (R61): the shape's action (R80, R82, R89, R95). -/
def Channel.aMatch (c : Channel) (st : Settings) : Channel :=
  match st.shape with
  | .matching =>
    match st.matchAction with
    | .none => c
    | .low => { c with output := .low }
    | .high => { c with output := .high }
    | .toggle => { c with output := levelFlip c.output }
  | .wave => { c with output := st.polarity.inactive }
  | .oneShot =>
    if st.rearm then { c with output := st.polarity.inactive, mode := .armed }
    else { c with output := c.restLevel, mode := .stopped }
  | .capture => c

/-- A clock event advances the counter (R59): the channel after it, and the event it brings. -/
def Channel.advance (c : Channel) (st : Settings) : Channel × Option EventKind :=
  let value := c.counter.toNat + 1
  if st.wrapLimit = some value then (c.wrap, some .wrap)
  else
    let c := { c with counter := BitVec.ofNat 16 value }
    if value = st.action.toNat then (c.aMatch st, some .action) else (c, none)

/-! ## Triggers -/

/-- A pulse restart (R55, R87, R88): staged marks taken, counter and phase 0, restart tick now. -/
def Channel.pulseRestart (c : Channel) (now : Tick) : Channel :=
  let c := c.takeMarks
  { c with counter := 0, phase := 0, restart := some now }

/-- What became of a trigger: it started or restarted a pulse, a PULSING channel ignored it, or it was
not taken (R86 to R88). -/
inductive TriggerResult
  | taken
  | ignored
  | notTaken
  deriving DecidableEq, Repr

/-- A trigger of any source (R86 to R88). -/
def Channel.trigger (c : Channel) (now : Tick) : Channel × TriggerResult :=
  match c.settings with
  | some st =>
    if st.shape = .oneShot ∧ c.mode = .armed then
      ({ c.pulseRestart now with output := st.polarity.active, mode := .pulsing }, .taken)
    else if st.shape = .oneShot ∧ c.mode = .pulsing then
      match st.retrigger with
      | .ignore => (c, .ignored)
      | .extend => (c.pulseRestart now, .taken)
    else (c, .notTaken)
  | none => (c, .notTaken)

/-! ## The tick arrival (R54) -/

/-- The edge a new sample makes against the last one (R54, step 1). -/
def edgeOf (last new : Level) : Option Edge :=
  match last, new with
  | .low, .high => some .rise
  | .high, .low => some .fall
  | .low, .low => none
  | .high, .high => none

/-- A link's delivery at an event (R99, R100, R101), if the link field for it is not NONE. -/
def Channel.linkAt (c : Channel) (id : ChanId) (kind : EventKind) : List LinkDelivery :=
  match c.settings with
  | some st =>
    let link := match kind with
      | .action => st.linkAction
      | .wrap => st.linkWrap
    if link = .none then [] else [{ source := id, kind, tag := c.tag, link }]
  | none => []

/-- Step 2 of R54: a counting channel takes its clock event, and the links of its event act. -/
def Channel.count (c : Channel) (id : ChanId) (now : Tick) (edge : Option Edge) : Channel × List LinkDelivery :=
  match c.settings with
  | some st =>
    if c.counting now then
      match c.clock st edge with
      | (c, false) => (c, [])
      | (c, true) =>
        match c.advance st with
        | (c, some kind) => (c, c.linkAt id kind)
        | (c, none) => (c, [])
    else (c, [])
  | none => (c, [])

/-- Step 3 of R54: a selected edge gives a CAPTURE record on a RUNNING CAPTURE channel (R96, R97) and a
trigger on an ARMED or PULSING ONE_SHOT channel (R86). At the tick of a RESUME no edge is acted on, whichever of the
RESUME and the arrival came first (R72, R98). -/
def Channel.handleEdge (c : Channel) (id : ChanId) (now : Tick) (edge : Option Edge) : Channel × List Rec :=
  match c.settings, edge with
  | some st, some e =>
    if st.inputEdge.selects e && !c.resumed then
      if st.shape = .capture ∧ c.mode = .running then
        (c, [.capture id e c.counter c.tag c.wrapCount now])
      else ((c.trigger now).1, [])
    else (c, [])
  | _, _ => (c, [])

/-- A channel's tick arrival at time `now` with its line sampled at `level` (R54): the channel, the link
deliveries it sets off, and its CAPTURE record if any. -/
def Channel.arrival (c : Channel) (id : ChanId) (now : Tick) (level : Level) :
    Channel × List LinkDelivery × List Rec :=
  let edge := edgeOf c.lastSample level
  let c := { c with lastSample := level, arrived := true }
  let r := c.count id now edge
  let e := r.1.handleEdge id now edge
  ({ e.1 with resumed := false }, r.2, e.2)

/-! ## Verbs (sections 3.4, 3.5, 4.4.1) -/

/-- SET (R62). -/
def Channel.set (c : Channel) (id : ChanId) (record : BitVec 160) (tag : Half) : Channel × CueOutcome :=
  if c.mode = .unset ∨ c.mode = .stopped then
    match legalSettings id record with
    | some st =>
      ({ c with settings := some st, restLevel := st.restLevel, staged := none, counter := 0, wrapCount := 0,
                phase := 0, restart := none, pausedFrom := none, output := st.restLevel, mode := .stopped,
                tag := tag }, .done)
    | none => (c, .refusedSettings)
  else (c, .refusedState)

/-- Steps 1 to 3 of R63. A START that ends a pulse takes them too, its counter becoming 0 (R64), although R89 says of such
a pulse that its counter is held where it was (the model's reading, assumption log 36). A tick arrival taken after it at
the same tick still acts on an input edge (R94, R98), also for a START in STOPPED, where R72 has the order make no
difference (the model's reading, assumption log 39). -/
def Channel.restartFresh (c : Channel) (now : Tick) (tag : Half) : Channel :=
  let c := c.takeMarks
  { c with counter := 0, wrapCount := 0, phase := 0, restart := some now, pausedFrom := none, tag := tag,
           resumed := false }

/-- Steps 4 and 5 of R63: the output by shape, then RUNNING or ARMED. -/
def Channel.startOutput (c : Channel) : Channel :=
  match c.settings with
  | some st => { c with output := st.startLevel, mode := if st.shape = .oneShot then .armed else .running }
  | none => c

/-- START (R63, R64). -/
def Channel.start (c : Channel) (now : Tick) (tag : Half) : Channel × CueOutcome :=
  match c.mode with
  | .stopped | .running | .paused | .pulsing => ((c.restartFresh now tag).startOutput, .done)
  | .armed => (c, .already)
  | .unset => (c, .refusedState)

/-- What STOP and the session stop do to a channel that is started (R65). -/
def Channel.halt (c : Channel) : Channel :=
  { c with mode := .stopped, output := c.restLevel, staged := none, pausedFrom := none }

/-- STOP (R65). -/
def Channel.stop (c : Channel) : Channel × CueOutcome :=
  match c.mode with
  | .running | .paused | .armed | .pulsing => (c.halt, .done)
  | .stopped => (c, .already)
  | .unset => (c, .refusedState)

/-- The session stop (R75): a started channel is halted, a STOPPED one loses its staged marks, an UNSET one
keeps its state. -/
def Channel.sessionStop (c : Channel) : Channel :=
  match c.mode with
  | .running | .paused | .armed | .pulsing => c.halt
  | .stopped => { c with staged := none }
  | .unset => c

/-- PAUSE (R66). -/
def Channel.pause (c : Channel) : Channel × CueOutcome :=
  match c.mode with
  | .running => ({ c with mode := .paused, pausedFrom := some .running }, .done)
  | .pulsing => ({ c with mode := .paused, pausedFrom := some .pulsing }, .done)
  | .paused => (c, .already)
  | .unset | .stopped | .armed => (c, .refusedState)

def PausedFrom.mode : PausedFrom → ChanMode
  | .running => .running
  | .pulsing => .pulsing

/-- RESUME (R67). A PAUSED channel always holds paused-from (R66). Taken before the tick's arrival it keeps that
arrival from acting on an edge (R72). -/
def Channel.resume (c : Channel) (now : Tick) : Channel × CueOutcome :=
  match c.mode, c.pausedFrom with
  | .paused, some p => ({ c with mode := p.mode, pausedFrom := none, restart := some now, resumed := !c.arrived }, .done)
  | _, _ => (c, .refusedState)

/-- STAGE (R69). -/
def Channel.stage (c : Channel) (m : Marks) : Channel × CueOutcome :=
  match c.mode, c.settings with
  | .unset, _ => (c, .refusedState)
  | _, some st =>
    if (st.withMarks m).marksLegal then
      ({ c with staged := some m }, if c.staged.isSome then .doneReplacing else .done)
    else (c, .refusedSettings)
  | _, none => (c, .refusedState)

/-- FIRE (R91, Table 4-5). -/
def Channel.fire (c : Channel) (now : Tick) : Channel × CueOutcome :=
  match c.trigger now with
  | (c', .taken) => (c', .done)
  | (_, .ignored) => (c, .ignored)
  | (_, .notTaken) => (c, .refusedState)

/-- The SNAPSHOT record of a channel (R68). -/
def Channel.snapshotRecord (c : Channel) (id : ChanId) (now : Tick) (tag : Half) : Rec :=
  .snapshot id c.mode c.output c.staged.isSome c.counter tag c.wrapCount now

/-- A channel takes a cue's verb (R3): the channel, the outcome, and the records it produces. -/
def Channel.take (c : Channel) (id : ChanId) (now : Tick) (tag : Half) : ChanVerb → Channel × CueOutcome × List Rec
  | .set record => let r := c.set id record tag; (r.1, r.2, [])
  | .start => let r := c.start now tag; (r.1, r.2, [])
  | .stop => let r := c.stop; (r.1, r.2, [])
  | .pause => let r := c.pause; (r.1, r.2, [])
  | .resume => let r := c.resume now; (r.1, r.2, [])
  | .stage m => let r := c.stage m; (r.1, r.2, [])
  | .fire => let r := c.fire now; (r.1, r.2, [])
  | .snapshot => (c, .done, [c.snapshotRecord id now tag])

/-- A channel as a successful PREPARE sets it up (R77): UNSET at its initial rest level, the last input
sample the level of its line now. -/
def Channel.prepared (rest line : Level) (arrived : Bool) : Channel :=
  { Channel.reset with restLevel := rest, output := rest, lastSample := line, arrived := arrived }

end Sys2Proof.Machine
end

