-- ==== Sys2Proof/Machine/Converter.lean ====
section
/-! DEFINITION. Machine/Converter.lean: what the Converter does at each of its events (Chapter 5). Each function
is about the Converter alone: it takes the current tick and the tick divider and gives the Converter
and the records it produces, in order. -/

namespace Sys2Proof.Machine

/-- An operation's length in ticks: its length in units of 10 ns over the tick divider, rounded up
(R106). -/
def opTicks (units divider : Nat) : Nat := (units + divider - 1) / divider

def conversionTicks (divider : Nat) : Nat := opTicks 400 divider
def warmUpTicks (divider : Nat) : Nat := opTicks 3000 divider
def settlingTicks (divider : Nat) : Nat := opTicks 2000 divider

/-- The nominal value of R105 for an input voltage V and full scale F in one unit: 4096 V / F rounded
down, limited to 4095. The value a conversion gives is free (Config.conversionValue): the manual does
not bound how far it lies from this. -/
def nominalValue (v f : Nat) : BitVec 12 := BitVec.ofNat 12 (min 4095 (4096 * v / f))

/-- The DROP record of a request (R116). -/
def dropRecord (r : ConvRequest) (cause : DropCause) (now : Tick) : Rec :=
  .drop r.input r.source cause r.tag now

/-- The SAMPLE record of a conversion (R113). -/
def sampleRecord (c : Conversion) : Rec :=
  .sample c.request.input c.request.source (Config.conversionValue c.index c.request.input c.ref) c.request.tag c.start

/-- A READY Converter with a request waiting starts the oldest (R112). -/
def Converter.startOldest (c : Converter) (now : Tick) (divider : Nat) : Converter :=
  match c.power, c.queue with
  | .ready, r :: rest =>
    { c with queue := rest, inFlight := some { request := r, start := now, ref := c.current, index := c.samples },
             power := .converting, endTick := some (now.toNat + conversionTicks divider), samples := c.samples + 1 }
  | _, _ => c

/-- The Converter has room for a request (R112). -/
def Converter.hasRoom (c : Converter) : Bool := decide (c.queue.length < Config.converterPlaces)

/-! ## Verbs -/

/-- POWER_ON (R107). -/
def Converter.powerOn (c : Converter) (now : Tick) (divider : Nat) : Converter × CueOutcome :=
  match c.power with
  | .off => ({ c with power := .warming, endTick := some (now.toNat + warmUpTicks divider) }, .done)
  | .warming | .ready | .converting | .settling => (c, .already)

/-- The requests a stop of the Converter abandons: the one in flight, then the queue, oldest first. -/
def Converter.held (c : Converter) : List ConvRequest :=
  (match c.inFlight with
   | some v => [v.request]
   | none => []) ++ c.queue

/-- Powered down with nothing held, a pending reference taken (R109 steps 1 to 5, R122 steps 2 to 5). -/
def Converter.emptied (c : Converter) : Converter :=
  { c with power := .off, current := c.pendingRef.getD c.current, pendingRef := none, queue := [],
           inFlight := none, endTick := none }

/-- POWER_OFF (R109). -/
def Converter.powerOff (c : Converter) (now : Tick) : Converter × CueOutcome × List Rec :=
  match c.power with
  | .off => (c, .already, [])
  | .warming | .ready | .converting | .settling =>
    (c.emptied, .done, c.held.map fun r => dropRecord r .powerOff now)

/-- The selected reference (R110). -/
def Converter.selected (c : Converter) : Reference := c.pendingRef.getD c.current

/-- REFERENCE (R110, Table 5-5). -/
def Converter.reference (c : Converter) (ref : Reference) (now : Tick) (divider : Nat) : Converter × CueOutcome :=
  if ref = c.selected then (c, .already)
  else
    match c.power with
    | .off | .warming => ({ c with current := ref }, .done)
    | .ready | .settling =>
      ({ c with current := ref, power := .settling, endTick := some (now.toNat + settlingTicks divider) }, .done)
    | .converting =>
      match c.pendingRef with
      | none => ({ c with pendingRef := some ref }, .done)
      | some _ => ({ c with pendingRef := none }, .done)

/-- The requests of a CONVERT cue, in ascending input order (R114). -/
def convertRequests (mask : BitVec 10) (source : Source) (tag : Half) : List ConvRequest :=
  ((List.finRange 10).filter fun k => mask.getLsbD k.val).map fun k => { input := k, source, tag }

/-- Each request in turn joins the queue while there is room; the others are dropped with QUEUE_FULL. -/
def Converter.joinAll (c : Converter) (now : Tick) : List ConvRequest → Converter × Nat × List Rec
  | [] => (c, 0, [])
  | r :: rest =>
    if c.hasRoom then
      let t := Converter.joinAll { c with queue := c.queue ++ [r] } now rest
      (t.1, t.2.1 + 1, t.2.2)
    else
      let t := c.joinAll now rest
      (t.1, t.2.1, dropRecord r .queueFull now :: t.2.2)

/-- CONVERT (R114). -/
def Converter.convert (c : Converter) (mask : BitVec 10) (source : Source) (tag : Half) (now : Tick)
    (divider : Nat) : Converter × CueOutcome × List Rec :=
  match c.power with
  | .off => (c, .refusedConverterOff, [])
  | .warming | .ready | .converting | .settling =>
    let requests := convertRequests mask source tag
    let t := c.joinAll now requests
    (t.1.startOldest now divider,
     if t.2.1 = requests.length then .done else if t.2.1 = 0 then .refusedQueueFull else .partly,
     t.2.2)

/-- The Converter takes a cue's verb (R3). -/
def Converter.take (c : Converter) (source : Source) (tag : Half) (now : Tick) (divider : Nat) :
    ConvVerb → Converter × CueOutcome × List Rec
  | .powerOn => let r := c.powerOn now divider; (r.1, r.2, [])
  | .powerOff => c.powerOff now
  | .reference ref => let r := c.reference ref now divider; (r.1, r.2, [])
  | .convert mask => c.convert mask source tag now divider

/-! ## Link requests (R115, R121) -/

def ClosingCause.drop : ClosingCause → DropCause
  | .sessionEnd => .sessionEnd
  | .fault => .fault

/-- A conversion request of a CONVERT link arrives. -/
def Converter.linkRequest (c : Converter) (r : ConvRequest) (now : Tick) (divider : Nat) : Converter × List Rec :=
  match c.closing with
  | some cause => (c, [dropRecord r cause.drop now])
  | none =>
    match c.power with
    | .off => (c, [dropRecord r .converterOff now])
    | .warming | .ready | .converting | .settling =>
      if c.hasRoom then (Converter.startOldest { c with queue := c.queue ++ [r] } now divider, [])
      else (c, [dropRecord r .queueFull now])

/-! ## Ends of timed operations -/

/-- The operation of this power state has reached its end tick (R106). -/
def Converter.ends (c : Converter) (power : PowerState) (now : Tick) : Bool :=
  c.power == power &&
    (match c.endTick with
     | some t => decide (t ≤ now.toNat)
     | none => false)

/-- The end of a warm-up or of a settling: READY, and the oldest request starts (R108, R111). -/
def Converter.becomeReady (c : Converter) (now : Tick) (divider : Nat) : Converter :=
  Converter.startOldest { c with power := .ready, endTick := none } now divider

/-- The end of a conversion (R113); in a drain only its step 1, and then OFF (R120, step 4 and 5). -/
def Converter.conversionEnd (c : Converter) (now : Tick) (divider : Nat) : Converter × List Rec :=
  match c.inFlight with
  | some v =>
    let c' := { c with inFlight := none }
    (if c.closing.isSome then c'.emptied
     else
       match c.pendingRef with
       | some ref => { c' with current := ref, pendingRef := none, power := .settling,
                               endTick := some (now.toNat + settlingTicks divider) }
       | none => c'.becomeReady now divider,
     [sampleRecord v])
  | none => (c, [])

/-! ## The end of a session -/

/-- A drain begins (R120, steps 1 to 3, and 5 when no conversion is in flight). -/
def Converter.drain (c : Converter) (now : Tick) : Converter × List Rec :=
  let drops := c.queue.map fun r => dropRecord r .sessionEnd now
  let c' := { c with closing := some .sessionEnd, queue := [] }
  (if c.inFlight.isSome then c' else c'.emptied, drops)

/-- An abort or a wind-down begins (R122). -/
def Converter.abort (c : Converter) (now : Tick) : Converter × List Rec :=
  (Converter.emptied { c with closing := some .fault }, c.held.map fun r => dropRecord r .fault now)

/-- The Converter is idle: nothing in flight (R120, step 5). -/
def Converter.idle (c : Converter) : Bool := c.inFlight.isNone

end Sys2Proof.Machine
end

