-- ==== Sys2Proof/Machine/Writer.lean ====
section
/-! DEFINITION. Machine/Writer.lean: the result queue, the current page, closes and slot examination: what the
Result Writer does of itself (Chapter 6). What it does with the answer to an access is in
Machine/WriterPath.lean. -/

namespace Sys2Proof.Machine

/-! ## Losses and the queue -/

/-- `n` records are counted lost (R125). -/
def Writer.lose (w : Writer) (n : Nat) : Writer := { w with lost := satAdd w.lost n }

/-- Records among the items of the queue; markers count nothing (R125). -/
def recordCount : List Item → Nat
  | [] => 0
  | .record _ :: rest => recordCount rest + 1
  | .closeMarker _ :: rest => recordCount rest
  | .endMarker :: rest => recordCount rest

/-- The writer keeps what it is offered: it is not DONE and has taken no abort (R141, R144). -/
def Writer.keeps (w : Writer) : Bool := w.state != .done && !w.aborting

/-- The queue has a free place (R124). -/
def Writer.hasPlace (w : Writer) : Bool := decide (w.queue.length < Config.resultPlaces)

/-- Discarding every item of the queue, each record counted lost (R134, R137, R139, R141). -/
def Writer.discardQueue (w : Writer) : Writer := { w.lose (recordCount w.queue) with queue := [] }

/-- The writer becomes DONE: what it still holds is discarded, the fault record counted lost with it, and
it makes no further access (R134, R137, R139 to R144). The current page is left as it stands. -/
def Writer.stop (w : Writer) : Writer :=
  let w := w.discardQueue
  let w := w.lose (if w.faultRecord.isSome then 1 else 0)
  { w with state := .done, faultRecord := none, task := .none, reread := .absent, deadlineDue := false }

/-! ## Pages and closes -/

/-- A record of this length fits in the page (R135). -/
def Page.fits (p : Page) (length : Nat) : Bool := decide (p.nextFree + length ≤ p.size.toNat)

/-- The page after a record of this length has been written into it (R135). -/
def Page.wrote (p : Page) (length : Nat) (now : Tick) : Page :=
  { p with nextFree := p.nextFree + length, records := p.records + 1,
           firstTick := some (p.firstTick.getD now) }

/-- A page just taken (R132). -/
def GoodSlot.page (g : GoodSlot) : Page :=
  { slot := g.slot, address := g.entry.address, size := g.entry.size, nextFree := 32, records := 0, firstTick := none }

/-- Close decided (R137, step 1): the close time and the close sequence number are fixed, and with them the
lost total the header carries (assumption log 14). -/
def Writer.beginClose (w : Writer) (cause : CloseCause) (now : Tick) (marker : Option CloseMarker) : Writer :=
  { w with closeSeq := w.closeSeq + 1, deadlineDue := false,
           task := .header { cause, seq := w.closeSeq + 1, time := now, lost := w.lost, marker } }

/-- The closes the writer decides of itself while it holds a page and makes no access: FULL when the head
record, or the fault record of a flush, does not fit (R135, R142); SESSION_END when the end marker has
been reached and the queue is empty (R140); FAULT when a flush has written its fault record and the queue is empty
(R142). That a record which joined while the fault record was being written is written behind it, before the FAULT
close, is the model's choice (assumption log 41). -/
def Writer.decideClose (w : Writer) (now : Tick) : Writer :=
  match w.task, w.state, w.page with
  | .none, .opened, some p =>
    match w.queue with
    | .record r :: _ => if p.fits (recLength r) then w else w.beginClose .full now none
    | .closeMarker _ :: _ => w
    | .endMarker :: _ => w
    | [] =>
      if w.flushing then
        match w.faultRecord with
        | some _ => if p.fits 32 then w else w.beginClose .full now none
        | none => w.beginClose .fault now none
      else if w.endTaken then w.beginClose .sessionEnd now none
      else w
  | _, _, _ => w

/-- A record offered to the result queue (R125): it joins the newest end, or is lost and counted. -/
def Writer.offer (w : Writer) (now : Tick) (r : Rec) : Writer :=
  if w.keeps && w.hasPlace then Writer.decideClose { w with queue := w.queue ++ [.record r] } now
  else w.lose 1

def State.offer (s : State) (r : Rec) : State := { s with wr := s.wr.offer s.now r }

/-- Records offered one after another. -/
def State.offerAll (s : State) : List Rec → State
  | [] => s
  | r :: rest => (s.offer r).offerAll rest

/-! ## Slots (section 6.4) -/

/-- The checks of an OFFERED slot in the order of R130; the first that holds is the reject reason. -/
def slotCheck (window : Option Window) (e : SlotEntry) : Option RejectReason :=
  if e.address.toNat % 256 ≠ 0 then some .badAlign
  else if e.size.toNat < 512 ∨ 65536 < e.size.toNat ∨ e.size.toNat % 256 ≠ 0 then some .badSize
  else if windowHolds window e.address.toNat e.size.toNat then none
  else some .outsideWindow

/-- OFFERED is slot state 1; any other value is passed over (R130). -/
def SlotEntry.offered (e : SlotEntry) : Bool := e.state == 1

/-- Examining entries in index order up to the first good one (R130): those that fail, and the good one. -/
def examineSlots (window : Option Window) : List (SlotId × SlotEntry) → List FailedSlot × Option GoodSlot
  | [] => ([], none)
  | (slot, e) :: rest =>
    if e.offered then
      match slotCheck window e with
      | some reason =>
        let t := examineSlots window rest
        ({ slot, reason, entry := e } :: t.1, t.2)
      | none => ([], some { slot, entry := e })
    else examineSlots window rest

/-- The sixteen entries with their slot numbers. -/
def numberedSlots (entries : List SlotEntry) : List (SlotId × SlotEntry) := (List.finRange 16).zip entries

/-! ## Rereads (R133) -/

/-- The reread asked for has begun: not merely its first read waiting to be issued (assumption log 13). -/
def State.rereadBegun (s : State) : Bool :=
  match s.wr.task with
  | .table [] => s.port.writer.isOutstanding
  | _ => true

/-- A reread request reaches a STARVED writer (R133). -/
def Writer.askReread (w : Writer) (begun : Bool) : Writer :=
  match w.reread with
  | .absent => { w with reread := .present, task := .table [] }
  | .present => if begun then { w with reread := .kept } else w
  | .kept => w

/-- The 16th scan event of a STARVED drain has been taken: the reread it started is the last, so no
further request is taken (R134). -/
def State.lastRereadMade (s : State) : Bool :=
  s.eng.state == .draining && decide (Config.drainScanLimit ≤ s.wr.starveCount)

/-- A reread request to the writer from a scan event or a NUDGE: only a STARVED writer takes it (R133). -/
def State.writerReread (s : State) : State :=
  if s.wr.state == .starved && !s.lastRereadMade then { s with wr := s.wr.askReread s.rereadBegun } else s

/-- A scan event taken while STARVED in DRAINING raises the starve count (R134). -/
def State.writerScan (s : State) : State :=
  let s' := s.writerReread
  if s.wr.state == .starved && s.eng.state == .draining then
    { s' with wr := { s'.wr with starveCount := min Config.drainScanLimit (s'.wr.starveCount + 1) } }
  else s'

/-! ## When the writer works -/

/-- The engine states in which the writer works (R128, R141, R142): with a session alive and no abort of
its preparation, in the flush of a wind-down, and in the close an abort left to finish. -/
def State.writerWorks (s : State) : Bool :=
  match s.eng.state with
  | .preparing => s.initialFetch
  | .armed | .running | .draining => true
  | .faulted => s.wr.flushing
  | .ended => s.wr.aborting
  | .off => false

/-- The access the writer presents next, with the task it is then making (Table 8-2). -/
def State.writerWants (s : State) : Option (Request × WriterTask) :=
  match s.wr.task with
  | .table es => some (slotTableRead s.eng.cba es.length, .table es)
  | .reject (f :: todo) good =>
    some (slotWrite s.eng.cba f.slot (.rejected f.reason) f.entry.address f.entry.size, .reject (f :: todo) good)
  | .reject [] _ => none
  | .fill g => some (slotWrite s.eng.cba g.slot .filling g.entry.address g.entry.size, .fill g)
  | .header c =>
    s.wr.page.map fun p =>
      ({ addr := p.address, len := 32, write := true, data := pageHeaderBytes s.eng.session p c }, .header c)
  | .closed c =>
    s.wr.page.map fun p => (slotWrite s.eng.cba p.slot (.closed p.records c.seq) p.address p.size, .closed c)
  | .record _ => none
  | .faultRecord => none
  | .none =>
    match s.wr.state, s.wr.page with
    | .opened, some p =>
      let at_ := p.address + BitVec.ofNat 32 p.nextFree
      match s.wr.queue, s.wr.faultRecord with
      | .record r :: _, _ =>
        some ({ addr := at_, len := recLength r, write := true, data := recBytes r }, .record (recLength r))
      | [], some f =>
        if s.wr.flushing then some ({ addr := at_, len := 32, write := true, data := f.bytes }, .faultRecord) else none
      | _, _ => none
    | _, _ => none

end Sys2Proof.Machine
end

