-- ==== Sys2Proof/Machine/Loader.lean ====
section
/-! DEFINITION. Machine/Loader.lean: what the Loader does with lanes, trails, heads, headers and cues
(Chapter 2), and the reports it makes through the Calendar's report path (R5, R31). -/

namespace Sys2Proof.Machine

/-! ## One lane -/

/-- The newest trail entry: the current segment's (R41). -/
def Lane.newest (l : Lane) : Option TrailEntry := l.trail.getLast?

def Lane.oldest (l : Lane) : Option TrailEntry := l.trail.head?

/-- The finish of the current segment, once it is seen finished. -/
def Lane.finish (l : Lane) : Option Finish := l.newest.bind (·.finish)

/-- The number of cues the current segment is known to hold (R29). -/
def Lane.knownCues (l : Lane) : Nat :=
  match l.finish with
  | some f => f.fill
  | none => l.knownFill

/-- The oldest trail entry is complete (R44). -/
def TrailEntry.complete (t : TrailEntry) : Bool :=
  match t.finish with
  | some f => t.retired == f.fill
  | none => false

def Lane.oldestComplete (l : Lane) : Bool :=
  match l.oldest with
  | some t => t.complete
  | none => false

/-- A change of the newest trail entry. -/
def changeNewest (f : TrailEntry → TrailEntry) : List TrailEntry → List TrailEntry
  | [] => []
  | [t] => [f t]
  | t :: u :: rest => t :: changeNewest f (u :: rest)

/-- One retirement counted against a trail entry and the lane (R42). -/
def Lane.countRetired (l : Lane) (ref : Word) : Lane :=
  { l with cuesRetired := l.cuesRetired + 1,
           trail := l.trail.map fun t => if t.address = ref then { t with retired := t.retired + 1 } else t }

/-- A held head retires when every earlier cue of its lane has retired (R43). -/
def Lane.releaseHeld (l : Lane) : Lane :=
  match l.head with
  | some h =>
    match h.body with
    | .held _ => if l.cuesRetired = h.seq then { l.countRetired h.trailRef with head := none } else l
    | .accepted _ => l
  | none => l

/-- A retirement reaches a lane (R42): it is counted, then a held head may retire. -/
def Lane.retire (l : Lane) (ref : Word) : Lane := (l.countRetired ref).releaseHeld

def State.retire (s : State) (i : LaneId) (ref : Word) : State := s.setLane i ((s.lane i).retire ref)

/-- A lane set up by PREPARE from its descriptor (R27). -/
def Lane.prepared (enabled : Bool) (first : Word) : Lane :=
  if enabled then
    { Lane.off with state := .active, current := first,
                    trail := [{ address := first, fetched := 0, retired := 0, finish := none }] }
  else Lane.off

/-- The segment at `address` is added at the newest end and becomes the current one, unless it stands in
the trail already (R38). -/
def Lane.enter (l : Lane) (address : Word) : Option Lane :=
  if l.trail.any (fun t => t.address == address) then none
  else some { l with state := .active, current := address, fetchIndex := 0, knownFill := 0, pendingNext := none,
                     reread := .absent,
                     trail := l.trail ++ [{ address, fetched := 0, retired := 0, finish := none }] }

/-- What moving on from the current segment gives (R38): a lane, or a lane fault BAD_NEXT. -/
def Lane.moveOn (l : Lane) : Option Lane :=
  match l.finish with
  | some f =>
    if f.next = 0 then some { l with state := .ended, reread := .absent }
    else if l.trail.length < Config.trailPlaces then l.enter f.next
    else some { l with state := .blocked, pendingNext := some f.next, reread := .absent }
  | none => some l

/-- The current segment is seen finished and every cue of its final fill has been fetched (R38). -/
def Lane.mustMoveOn (l : Lane) : Bool :=
  match l.finish with
  | some f => l.fetchIndex == f.fill
  | none => false

/-- The access a lane has pending (R29), with the status write first. -/
def Lane.pendingAccess (l : Lane) (draining : Bool) : Option LaneAccessKind :=
  let status := l.oldestComplete &&
    (match l.state with
     | .active | .waiting | .blocked | .ended => true
     | .stopped => draining
     | .off | .faulted => false)
  if status then some .status
  else
    match l.state with
    | .active =>
      if l.fetchIndex == l.knownFill && l.finish.isNone then some .header
      else if l.head.isNone && decide (l.fetchIndex < l.knownCues) then some .cue
      else none
    | .waiting => if l.reread == .absent then none else some .header
    | .off | .blocked | .ended | .faulted | .stopped => none

/-- A reread request reaches a lane (R34); only a WAITING lane takes it. -/
def Lane.askReread (l : Lane) (outstanding : Bool) : Lane :=
  if l.state = .waiting then
    match l.reread with
    | .absent => { l with reread := .present }
    | .present => if outstanding then { l with reread := .kept } else l
    | .kept => l
  else l

/-- The header read that a reread request caused has been answered (R34): the request goes, and a kept one
takes its place while the lane is still WAITING. -/
def Lane.rereadAnswered (l : Lane) : Lane :=
  match l.reread with
  | .kept => { l with reread := if l.state = .waiting then .present else .absent }
  | .present => { l with reread := .absent }
  | .absent => l

/-- The head is an accepted cue. -/
def Lane.acceptedHead (l : Lane) : Option (Head × Cue) :=
  match l.head with
  | some h =>
    match h.body with
    | .accepted c => some (h, c)
    | .held _ => none
  | none => none

/-! ## Rereads of every lane (R33) -/

/-- The header read of lane i is outstanding on the bus (assumption log 13). -/
def State.headerOutstanding (s : State) (i : LaneId) : Bool :=
  match s.loader.access with
  | some a => a.lane == i && a.kind == .header && s.port.loader.isOutstanding
  | none => false

/-- Every WAITING lane receives a reread request. -/
def State.lanesReread (s : State) : State :=
  { s with loader := { s.loader with
      lanes := Vector.ofFn fun i : LaneId => (s.loader.lanes[i]).askReread (s.headerOutstanding i) } }

/-! ## Lane faults and events (sections 2.6, 2.7) -/

/-- Steps 1 and 2 of R46: FAULTED, and an accepted head cancelled and held. -/
def Lane.fault (l : Lane) : Lane :=
  let l := { l with state := .faulted, pendingNext := none, reread := .absent }
  match l.acceptedHead with
  | some (h, _) => Lane.releaseHeld { l with head := some { h with body := .held .cancelled } }
  | none => l

/-- The cancellation count of a lane fault (R46). -/
def Lane.faultCount (l : Lane) : Word := if l.acceptedHead.isSome then 1 else 0

/-- A lane fault (R46), recording a segment address. -/
def State.laneFault (s : State) (i : LaneId) (cause : LaneFaultCause) (segment : Word) : State :=
  let count := (s.lane i).faultCount
  ((s.setLane i (s.lane i).fault).offer (.laneEvent i (.fault cause) segment count s.now)).raise .lane

/-- The lane moves on from its current segment, when it must (R38). -/
def State.moveOn (s : State) (i : LaneId) : State :=
  let l := s.lane i
  if l.mustMoveOn then
    match l.moveOn with
    | some l' => s.setLane i l'
    | none => s.laneFault i .badNext l.current
  else s

/-! ## Header reads (R35, R36) -/

/-- The next field of a finished header passes: 0, or a whole aligned segment in the window (R36). -/
def nextGood (window : Option Window) (next : Word) : Bool :=
  next == 0 || (next.toNat % 2048 == 0 && windowHolds window next.toNat 2048)

/-- A header read answered OKAY on a lane still ACTIVE or WAITING. -/
def State.headerRead (s : State) (i : LaneId) (h : SegmentHeader) : State :=
  let l := s.lane i
  if 63 < h.fill then s.laneFault i .fillRange l.current
  else if h.fill < l.knownFill then s.laneFault i .fillBackwards l.current
  else if h.finished then
    if nextGood s.port.window h.next then
      let l' := { l with state := .active, knownFill := h.fill, reread := .absent,
                         trail := changeNewest (fun t => { t with finish := some { fill := h.fill, next := h.next } }) l.trail }
      (s.setLane i l').moveOn i
    else s.laneFault i .badNext l.current
  else if l.knownFill < h.fill then s.setLane i { l with state := .active, knownFill := h.fill, reread := .absent }
  else s.setLane i (Lane.rereadAnswered { l with state := .waiting })

/-! ## Cue reads (R30 to R32) -/

/-- The CUE_REPORT of a cue rejected at fetch (R31, R184), from the bytes found in memory. -/
def rejectReport (i : LaneId) (seq : Word) (d : BusData) (outcome : HeldOutcome) (cue : Option Cue) (now : Tick) : Rec :=
  match outcome, cue with
  | .order, some c =>
    .cueReport { lane := i, seq, code := c.action.code, outcome := .order, time := now, detail := 0, tag := c.tag }
  | _, _ =>
    .cueReport { lane := i, seq, code := 0xFF, outcome := .malformed, time := now,
                 detail := byteAt d 0x07 ++ byteAt d 0x06, tag := halfAt d 0x08 }

/-- The counts of a fetch (R30): sequence counter, fetch index and the newest entry's count rise by 1. -/
def Lane.fetched (l : Lane) : Lane :=
  { l with seqCounter := l.seqCounter + 1, fetchIndex := l.fetchIndex + 1,
           trail := changeNewest (fun t => { t with fetched := t.fetched + 1 }) l.trail }

/-- A cue rejected at fetch: reported and alerted at once, then held at the lane head (R31). -/
def State.rejectCue (s : State) (i : LaneId) (d : BusData) (outcome : HeldOutcome) (cue : Option Cue) : State :=
  let l := s.lane i
  let head : Head := { seq := l.seqCounter, trailRef := l.current, body := .held outcome }
  ((s.setLane i (Lane.releaseHeld { l.fetched with head := some head })).offer
    (rejectReport i l.seqCounter d outcome cue s.now)).raise .refuse

/-- An accepted cue becomes the lane head, and its due time the last due (R32). -/
def State.acceptCue (s : State) (i : LaneId) (c : Cue) : State :=
  let l := s.lane i
  let head : Head := { seq := l.seqCounter, trailRef := l.current, body := .accepted c }
  s.setLane i { l.fetched with head := some head, lastDue := c.due }

/-- A cue read answered OKAY on a lane still ACTIVE: the cue is fetched and judged (R30, R31), and the lane
moves on when its segment is used up (R32). -/
def State.fetchCue (s : State) (i : LaneId) (d : BusData) : State :=
  let s' :=
    match readCue d with
    | none => s.rejectCue i d .malformed none
    | some c => if c.due.toNat < (s.lane i).lastDue.toNat then s.rejectCue i d .order (some c) else s.acceptCue i c
  s'.moveOn i

/-! ## Status writes (R44, R45) -/

/-- The LANE_EVENT ENDED record and its alert when an ENDED lane's trail has become empty (R45). -/
def State.laneEnded (s : State) (i : LaneId) : State :=
  let l := s.lane i
  if l.state = .ended ∧ l.trail = [] then
    (s.offer (.laneEvent i .ended l.current l.seqCounter s.now)).raise .lane
  else s

/-- A status write answered OKAY: the oldest entry goes, a BLOCKED lane adds its pending next, and an
ENDED lane with an empty trail is reported. -/
def State.statusWritten (s : State) (i : LaneId) : State :=
  let l := { s.lane i with trail := (s.lane i).trail.tail }
  match l.state, l.pendingNext with
  | .blocked, some next =>
    match l.enter next with
    | some l' => s.setLane i l'
    | none => (s.setLane i l).laneFault i .badNext l.current
  | _, _ => (s.setLane i l).laneEnded i

/-! ## Choosing an access (R29, R30) -/

/-- The lanes in rotation, beginning with a lane. -/
def rotation (first : LaneId) : List LaneId := [first, first + 1, first + 2, first + 3]

/-- The lane whose access is issued next, with its access. -/
def State.chosenAccess (s : State) : Option (LaneId × LaneAccessKind) :=
  (rotation s.loader.nextLane).findSome? fun i =>
    match (s.lane i).pendingAccess (s.eng.state == .draining) with
    | some k => if s.eng.state == .draining && k != .status then none else some (i, k)
    | none => none

/-- The engine states in which the Loader issues accesses (R29). -/
def State.loaderWorks (s : State) : Bool := s.takesCues || s.eng.state == .draining

/-- The segment and the request of a lane's access (Table 8-2). -/
def Lane.accessRequest (l : Lane) (k : LaneAccessKind) : Word × Request :=
  match k with
  | .status =>
    match l.oldest with
    | some t => (t.address, statusWrite t.address)
    | none => (l.current, statusWrite l.current)
  | .header => (l.current, headerRead l.current)
  | .cue => (l.current, cueRead l.current l.fetchIndex)

/-! ## Answers -/

/-- An answer of the port to a requester (section 8.1). -/
inductive Answer
  | okay (data : BusData)
  | error
  | outsideWindow
  deriving DecidableEq, Repr

/-- The lane fault cause of a failed access (Table 2-4). -/
def failureCause (k : LaneAccessKind) (a : Answer) : LaneFaultCause :=
  match a, k with
  | .outsideWindow, _ => .badNext
  | _, .status => .writeError
  | _, .header => .readError
  | _, .cue => .readError

/-- The answer to a lane's access while the Loader works: an OKAY header or cue read is handled, an OKAY
status write gives its entry back, a failure faults the lane (R30, R35, R44, R46). A read of a lane that
has become STOPPED is discarded, whatever the response. -/
def State.laneAnswer (s : State) (acc : LaneAccess) (a : Answer) : State :=
  let l := s.lane acc.lane
  match acc.kind, l.state with
  | .status, .off => s
  | .status, .faulted => s
  | .status, _ =>
    match a with
    | .okay _ => s.statusWritten acc.lane
    | .error | .outsideWindow => s.laneFault acc.lane (failureCause .status a) acc.segment
  | .header, .active | .header, .waiting =>
    match a with
    | .okay d => s.headerRead acc.lane (readHeader d)
    | .error | .outsideWindow => s.laneFault acc.lane (failureCause .header a) acc.segment
  | .cue, .active =>
    match a with
    | .okay d => s.fetchCue acc.lane d
    | .error | .outsideWindow => s.laneFault acc.lane (failureCause .cue a) acc.segment
  | _, _ => s

/-- The answer reaches the Loader (R172): handled while the Loader works, else discarded (R49, R50). While
an engine reset is pending the data of a read is discarded (R166). -/
def State.loaderAnswer (s : State) (a : Answer) : State :=
  match s.loader.access with
  | some acc =>
    let s' := { s with loader := { s.loader with access := none } }
    if !s.loaderWorks then s'
    else if s.eng.resetPending then
      match a, acc.kind with
      | .okay _, .header => s'
      | .okay _, .cue => s'
      | _, _ => s'.laneAnswer acc a
    else s'.laneAnswer acc a
  | none => s

/-! ## Stopping the lanes (R48, R49) -/

/-- Step 1 of R48: the lane becomes STOPPED, unless it is OFF, FAULTED, or ENDED with an empty trail. -/
def Lane.stopped (l : Lane) : Lane :=
  match l.state with
  | .active | .waiting | .blocked => { l with state := .stopped, pendingNext := none, reread := .absent }
  | .ended => if l.trail = [] then l else { l with state := .stopped, pendingNext := none, reread := .absent }
  | .stopped => { l with pendingNext := none, reread := .absent }
  | .off | .faulted => l

/-- Step 2 of R48: an accepted head of a stopped lane is cancelled and retired. -/
def Lane.cancelHead (l : Lane) : Lane :=
  match l.acceptedHead with
  | some (h, _) => Lane.retire { l with head := none } h.trailRef
  | none => l

/-- Steps 1 to 3 of R48 for lane i, of which the Calendar has cancelled `count` entries. -/
def State.stopLane (s : State) (i : LaneId) (count : Nat) : State :=
  let l := (s.lane i).stopped
  let total := count + (if l.acceptedHead.isSome then 1 else 0)
  let s' := s.setLane i l.cancelHead
  if total = 0 then s' else s'.offer (.laneEvent i .cancelled l.current (BitVec.ofNat 32 total) s.now)

/-- The number of entries of a lane. -/
def entriesOf (cal : List Entry) (i : LaneId) : Nat := (cal.filter fun e => e.lane == i).length

/-- Every lane stopped, lane 0 first (R48, R49). -/
def State.stopLanes (s : State) (cal : List Entry) : State :=
  (((s.stopLane 0 (entriesOf cal 0)).stopLane 1 (entriesOf cal 1)).stopLane 2 (entriesOf cal 2)).stopLane 3 (entriesOf cal 3)

/-- The Loader withdraws a request that waits for a grant (R49, R175): its access is taken as not made. -/
def State.withdrawLoader (s : State) : State :=
  if s.port.loader.isWaiting then
    { s with port := { s.port with loader := .none }, loader := { s.loader with access := none } }
  else s

/-! ## Offering heads (R39, R15) -/

/-- A lane is in a state that offers its head (R39). -/
def Lane.offers (l : Lane) (h : Head) : Bool :=
  match l.state with
  | .active | .waiting | .ended => true
  | .blocked =>
    match l.oldest with
    | some t => t.address == h.trailRef
    | none => false
  | .off | .faulted | .stopped => false

/-- The head lane i offers now: accepted, in an offering state, due no later than now plus the horizon,
the sum formed without loss (R39). -/
def State.offeredHead (s : State) (i : LaneId) : Option (Head × Cue) :=
  match (s.lane i).acceptedHead with
  | some (h, c) =>
    if s.takesCues && (s.lane i).offers h && decide (c.due.toNat ≤ s.now.toNat + s.params.horizon.toNat) then some (h, c)
    else none
  | none => none

end Sys2Proof.Machine
end

