-- ==== Sys2Proof/Machine/Session.lean ====
section
/-! DEFINITION. Machine/Session.lean: how Engine Control prepares, stops and ends a session: the preparation's
outcomes, drain, abort, fatal faults, the end summary (Chapter 7), and what the blocks do then (R23, R48,
R49, R75, R120, R122, R141, R142). -/

namespace Sys2Proof.Machine

/-! ## Stopping the blocks -/

/-- The Calendar retires every entry as CANCELLED, in Calendar order, each against its trail reference
(R23): no report and no alert. -/
def State.cancelEntries (s : State) : List Entry → State
  | [] => s
  | e :: rest => (s.retire e.lane e.trailRef).cancelEntries rest

def State.cancelCalendar (s : State) : State := { s with cal := [] }.cancelEntries s.cal

/-- The Calendar is cancelled, then the lanes are stopped and their heads cancelled, one LANE_EVENT
CANCELLED for each lane with a total (R8, R23, R48). -/
def State.cancelCues (s : State) : State := s.cancelCalendar.stopLanes s.cal

/-- Every channel is stopped (R75). -/
def State.stopChannels (s : State) : State := s.mapChans fun _ c => c.sessionStop

/-- The Converter takes a drain (R120). -/
def State.drainConverter (s : State) : State :=
  let r := s.conv.drain s.now
  ({ s with conv := r.1, eng := { s.eng with converterIdle := r.1.idle } }).offerAll r.2

/-- The Converter takes an abort or a wind-down (R122); it is idle at once. -/
def State.abortConverter (s : State) : State :=
  let r := s.conv.abort s.now
  ({ s with conv := r.1, eng := { s.eng with converterIdle := true } }).offerAll r.2

/-- A drain that begins while the writer is STARVED restarts its starve count (R134). -/
def State.restartStarveCount (s : State) : State :=
  if s.wr.state = .starved then { s with wr := { s.wr with starveCount := 0 } } else s

/-- What an abort and a fault wind-down do to the Calendar, the Loader, the channels and the Converter
(R159 step 2, R161). -/
def State.stopBlocks (s : State) : State := s.cancelCues.withdrawLoader.stopChannels.abortConverter

/-- The timebase stops and is held (R154). -/
def State.holdTimebase (s : State) : State := { s with tb := { s.tb with runs := false } }

/-! ## Drain (R157) -/

/-- A drain begins with an end cause. -/
def State.beginDrain (s : State) (cause : EndCause) : State :=
  ({ s with eng := { s.eng with state := .draining, endCause := cause, loaderQuiet := false,
                                pathComplete := false, markerPlaced := false } }).cancelCues.stopChannels.drainConverter.restartStarveCount

/-! ## The writer's end -/

/-- The writer becomes DONE and reports the result path complete. -/
def State.writerComplete (s : State) : State :=
  { s with wr := s.wr.stop, eng := { s.eng with pathComplete := true } }

/-- A close in progress: its header or its CLOSED write is still to be made or answered. -/
def WriterTask.closing : WriterTask → Bool
  | .header _ => true
  | .closed _ => true
  | .none | .table _ | .reject _ _ | .fill _ | .record _ | .faultRecord => false

/-- The waiting request of the writer is withdrawn at an abort, unless it belongs to a close (R141, step 3;
R175). -/
def State.withdrawWriter (s : State) : State :=
  if s.port.writer.isWaiting && !s.wr.task.closing then
    { s with port := { s.port with writer := .none }, wr := { s.wr with task := .none } }
  else s

/-- The end of an abort for the writer, once no access of it is outstanding (R141, steps 4 and 5): a page
that holds a record is closed with cause ABORTED, also where its deadline has expired (assumption log 46), else the writer
is DONE. -/
def State.writerAbortEnd (s : State) : State :=
  if s.wr.state = .done then { s with eng := { s.eng with pathComplete := true } }
  else if s.wr.task.closing || s.port.writer.isOutstanding then s
  else
    match s.wr.state, s.wr.page with
    | .opened, some p =>
      if 0 < p.records then { s with wr := s.wr.beginClose .aborted s.now none } else s.writerComplete
    | _, _ => s.writerComplete

/-- The writer takes an abort (R141, steps 1 to 3): a DONE writer has nothing left to do. -/
def State.writerAbort (s : State) : State :=
  if s.wr.state = .done then s
  else State.withdrawWriter { s with wr := { s.wr.discardQueue with aborting := true } }

/-- The FAULT record of TIMEBASE_END (R142, step 1). -/
def timebaseFault (now : Tick) : FaultRecord := { code := .timebaseEnd, secondary := false, address := 0, tick := now }

/-- The writer takes a wind-down after TIMEBASE_END (R142): a DONE writer counts the FAULT record lost and
counts as complete; a STARVED one with no reread under way has no page to come (assumption log 15); any
other flushes. -/
def State.beginFlush (s : State) : State :=
  if s.wr.state = .done then
    { s with wr := s.wr.lose 1, eng := { s.eng with pathComplete := true } }
  else
    let s' := { s with wr := { s.wr with faultRecord := some (timebaseFault s.now), flushing := true, endTaken := false } }
    if s'.wr.state = .starved ∧ s'.wr.task = .none then s'.writerComplete
    else { s' with wr := s'.wr.decideClose s'.now }

/-! ## Fatal faults (R160, R161) -/

/-- A summary write that an abort or a fault overtakes: outstanding or waiting, it completes and its
answer is discarded; not yet presented, it is dropped (R159, step 4). -/
def State.overtakeSummary (s : State) : State :=
  match s.eng.task with
  | .summary _ _ => { s with eng := { s.eng with task := if s.port.engine.isNone then .none else .discard } }
  | _ => s

/-- The engine enters FAULTED and the wind-down begins. -/
def State.fatalFault (s : State) (code : FatalFault) (address : Word) : State :=
  let s := s.overtakeSummary
  let s := ({ s with eng := { s.eng with state := .faulted, windDown := false, faultCode := some code,
                                         faultAddr := address } }).raise .fault
  let s := s.holdTimebase.stopBlocks
  match code with
  | .timebaseEnd => s.beginFlush
  | .resultPathError => { s with wr := s.wr.lose 1, eng := { s.eng with pathComplete := true } }

/-- The result path fails at an address (R139): the writer stops, and Engine Control takes the failure as
a fatal fault, or in FAULTED as a second failure (R160, R162). While an engine reset is pending Engine
Control takes nothing (R166). -/
def State.pathFailure (s : State) (address : Word) : State :=
  let s := { s with wr := { s.wr.stop with pathFailed := true } }
  if s.eng.resetPending then s
  else
    match s.eng.state with
    | .preparing | .armed | .running | .draining => s.fatalFault .resultPathError address
    | .ended => if s.eng.windDown then s else s.fatalFault .resultPathError address
    | .faulted => { s with eng := { s.eng with secondary := true, pathComplete := true } }
    | .off => s

/-! ## Abort (R159) -/

/-- An ABORT taken in ARMED, RUNNING or DRAINING. The writer takes it before the abort's own LANE_EVENT and DROP records
are offered (the model's choice, assumption log 42; R141, step 2, allows either). -/
def State.abortSession (s : State) : State :=
  let s := s.overtakeSummary
  let s := { s with eng := { s.eng with state := .ended, windDown := false, endCause := .aborted } }
  (s.holdTimebase.writerAbort.stopBlocks).writerAbortEnd

/-! ## Preparation (R149 to R153) -/

/-- The preparation ends without a session (R151, R153): the prepare error, PREP, and OFF. -/
def State.failPrepare (s : State) (err : PrepareError) : State :=
  ({ s with eng := { s.eng with state := .off, prepError := err, checked := false, aborting := false,
                                task := .none } }).raise .prep

/-- An abort of a preparation goes on as far as the outstanding transactions let it (R153): in the read
phase OFF once no read is outstanding, with the lanes as they were (assumption log 33), where a read that still waits
for its grant goes on and its answer will be discarded (R175, assumption log 27); in the initial fetch the lanes OFF
once the Loader's transaction has completed, and the engine OFF once the writer's has too. -/
def State.prepareAbortEnd (s : State) : State :=
  if s.eng.checked then
    let s := if s.port.loader.isOutstanding then s
             else { s with loader := { s.loader with lanes := Vector.replicate 4 Lane.off, access := none } }
    if s.port.loader.isOutstanding || s.port.writer.isOutstanding then s else s.failPrepare .aborted
  else if s.port.engine.isOutstanding then s
  else State.failPrepare { s with eng := { s.eng with staleRead := s.port.engine.isWaiting } } .aborted

/-- An ABORT accepted in PREPARING (R153): in the initial fetch the Calendar is emptied without
retirement, and the waiting requests of the Loader and the writer are withdrawn (R175). -/
def State.abortPreparation (s : State) : State :=
  let s := { s with eng := { s.eng with aborting := true } }
  let s := if s.eng.checked then
      { s with cal := [], port := { s.port with loader := s.port.loader.withdrawn, writer := s.port.writer.withdrawn } }
    else s
  s.prepareAbortEnd

/-- The checks of R150 have passed and the session is set up (R152). Link deliveries are left as they are: none is under way
then, because the last session's end summary waited for them (State.summaryDue), so no request of a link vanishes here
(R116). -/
def State.setUpSession (s : State) (su : SessionSetup) : State :=
  { s with
    eng := { s.eng with checked := true, task := .none, lastStart := s.pins.start, converterIdle := false,
                        loaderQuiet := false, pathComplete := false, markerPlaced := false }
    tb := { count := su.startTime, runs := false, divider := su.divider, scanCount := 0 }
    params := su.params
    port := { s.port with window := some su.window }
    cal := []
    loader := { lanes := Vector.ofFn fun i : LaneId => Lane.prepared (su.lanes[i]).1 (su.lanes[i]).2,
                nextLane := 0, access := none }
    chans := Vector.ofFn fun i : ChanId =>
      Channel.prepared (levelOfBit (su.restLevels.getLsbD i.val)) (s.pins.tin[i]) true
    conv := Converter.reset s.conv.samples
    wr := Writer.reset }

/-! ## The end summary (R158, R162, R164) -/

/-- The summary is finished, complete or not: a drain or an abort sets END and reaches ENDED with wind-down
complete set, a wind-down sets wind-down complete. -/
def State.finishSummary (s : State) : State :=
  let s := { s with eng := { s.eng with task := .none } }
  match s.eng.state with
  | .draining | .ended => ({ s with eng := { s.eng with state := .ended, windDown := true } }).raise .ended
  | .faulted => { s with eng := { s.eng with windDown := true } }
  | .off | .preparing | .armed | .running => s

/-- The answer to an access of Engine Control (R149, R153, R159, R162, R164). While an engine reset is
pending it is discarded (R166), and so is that of a read left waiting by an abort (R175). -/
def State.engineAnswer (s : State) (a : Answer) : State :=
  if s.eng.resetPending then { s with eng := { s.eng with task := .none, staleRead := false } }
  else
    match s.eng.task with
    | .readFirst =>
      if s.eng.staleRead then { s with eng := { s.eng with staleRead := false } }
      else if s.eng.aborting then s.failPrepare .aborted
      else
        match a with
        | .okay d => { s with eng := { s.eng with task := .readSecond d } }
        | .error | .outsideWindow => s.failPrepare .busError
    | .readSecond first =>
      if s.eng.aborting then s.failPrepare .aborted
      else
        match a with
        | .okay d =>
          match prepareChecks s.eng.cba (d ++ first) with
          | .ok su => s.setUpSession su
          | .error e => s.failPrepare e
        | .error | .outsideWindow => s.failPrepare .busError
    | .summary k bytes =>
      match a with
      | .okay _ =>
        if k = 2 then s.finishSummary
        else { s with eng := { s.eng with task := .summary (k + 1) bytes } }
      | .error | .outsideWindow => State.finishSummary { s with eng := { s.eng with secondary := true } }
    | .discard => { s with eng := { s.eng with task := .none } }
    | .none => { s with eng := { s.eng with staleRead := false } }

/-- The access Engine Control presents next (Table 8-2). -/
def State.engineWants (s : State) : Option Request :=
  match s.eng.task with
  | .readFirst => some (controlRead s.eng.cba false)
  | .readSecond _ => if s.eng.aborting then none else some (controlRead s.eng.cba true)
  | .summary k bytes => some (summaryWrite s.eng.cba k bytes)
  | .discard => none
  | .none => none

end Sys2Proof.Machine
end

