-- ==== Sys2Proof/Machine/WriterPath.lean ====
section
/-! DEFINITION. Machine/WriterPath.lean: what the Result Writer does with the answers to its accesses: takings,
rejections, record writes, closes (sections 6.4, 6.5, 6.7), and how it settles a close marker (R126). -/

namespace Sys2Proof.Machine

/-- The CUE_REPORT that settles a close marker (R126, R11, R184), when R5 requires one: the outcome given,
or DONE_LATE for a late cue. -/
def closeReport (m : CloseMarker) (outcome : CueOutcome) : List Rec :=
  if m.lateness.isSome || m.report then
    [.cueReport { lane := m.lane, seq := m.seq, code := 0x89,
                  outcome := if m.lateness.isSome then .doneLate else outcome,
                  time := m.time, detail := m.lateness.getD 0, tag := m.tag }]
  else []

/-- What the writer decides once it makes no access: a close (decideClose), or that it has written all
(R140 step 3 and 4, R142 step 6). -/
def State.writerSettle (s : State) : State :=
  let s := { s with wr := s.wr.decideClose s.now }
  if s.wr.state = .idle ∧ s.wr.task = .none ∧ s.wr.queue = [] ∧
      (s.wr.endTaken ∨ (s.wr.flushing ∧ s.wr.faultRecord = none)) then s.writerComplete
  else s

/-- The writer becomes STARVED, and STARVE is set (R133, R138). -/
def State.becomeStarved (s : State) : State :=
  ({ s with wr := { s.wr with state := .starved, starveCount := 0, reread := .absent, task := .none } }).raise .starve

/-- A reread found no good slot: a kept request starts another (R133). -/
def State.rereadFailed (s : State) : State :=
  match s.wr.reread with
  | .kept => { s with wr := { s.wr with reread := .present, task := .table [] } }
  | .present | .absent => { s with wr := { s.wr with reread := .absent, task := .none } }

/-- An examination found no good slot (R133). In a flush the taking is not retried and the writer ends (R142,
step 3); it has entered STARVED all the same (R130, R138). -/
def State.noSlot (s : State) : State :=
  if s.wr.state = .starved then if s.wr.flushing then s.writerComplete else s.rereadFailed
  else if s.wr.flushing then s.becomeStarved.writerComplete
  else s.becomeStarved

/-- After the rejections of an examination: the good slot is taken, or there is none (R130). -/
def State.afterRejects (s : State) (good : Option GoodSlot) : State :=
  match good with
  | some g => { s with wr := { s.wr with task := .fill g } }
  | none => s.noSlot

/-- The last read of the slot table has been answered: the entries are examined (R130). -/
def State.examine (s : State) (entries : List SlotEntry) : State :=
  let t := examineSlots s.port.window (numberedSlots entries)
  if t.1 = [] then s.afterRejects t.2 else { s with wr := { s.wr with task := .reject t.1 t.2 } }

/-- The record write of this length was answered OKAY (R135). -/
def State.recordWritten (s : State) (length : Nat) : State :=
  { s with wr := { s.wr with queue := s.wr.queue.tail, page := s.wr.page.map (·.wrote length s.now), task := .none } }

/-- Whether the close leaves the writer DONE (R137, step 4). A drain's SESSION_END close does so also where TIMEBASE_END
overtakes it, and the FAULT record is then lost (the model's reading, assumption log 35). -/
def Writer.closeIsLast (w : Writer) (c : Closing) : Bool :=
  w.aborting || w.closeSeq == BitVec.allOnes 32 ||
    (match c.cause with
     | .sessionEnd | .aborted | .fault => true
     | .full | .deadline | .cue => false)

/-- A close that only the limit of the close sequence counter makes the last: the path is complete when the
end marker had been placed, or in a flush (assumption log 16). -/
def State.limitClose (s : State) (c : Closing) : State :=
  match c.cause with
  | .sessionEnd | .aborted | .fault => s.writerComplete
  | .full | .deadline | .cue =>
    if s.wr.aborting || s.wr.flushing || s.eng.markerPlaced then s.writerComplete else { s with wr := s.wr.stop }

/-- Close complete (R137, step 4), then the report of the close marker that asked for it (R126). -/
def State.closeComplete (s : State) (c : Closing) : State :=
  let last := s.wr.closeIsLast c
  let s := ({ s with wr := { s.wr with page := none, task := .none, state := .idle } }).raise .page
  let s := if last then s.limitClose c else s
  let s := match c.marker with
    | some m => s.offerAll (closeReport m .done)
    | none => s
  if last then s else s.writerSettle

/-- The task of the writer whose access is answered OKAY goes on. Where a deadline expiry taken during a record write
waits for its answer (R136) and an ABORT comes first (R141), the page is closed with cause ABORTED and the expiry
dropped (the model's reading, assumption log 46). -/
def State.writerOkay (s : State) (d : BusData) : State :=
  match s.wr.task with
  | .table es =>
    if s.wr.aborting then s.writerAbortEnd
    else
      let es' := es ++ fourEntries d
      if es'.length < 16 then { s with wr := { s.wr with task := .table es' } } else s.examine es'
  | .reject (f :: todo) good =>
    let s := s.offer (.slotReject f.slot f.reason s.now)
    if s.wr.aborting then s.writerAbortEnd
    else if todo = [] then s.afterRejects good
    else { s with wr := { s.wr with task := .reject todo good } }
  | .reject [] good => s.afterRejects good
  | .fill g =>
    if s.wr.aborting then s.writerAbortEnd
    else
      State.writerSettle
        { s with wr := { s.wr with page := some g.page, state := .opened, reread := .absent, task := .none } }
  | .record length =>
    let due := s.wr.deadlineDue
    let s := s.recordWritten length
    if s.wr.aborting then s.writerAbortEnd
    else if due then { s with wr := s.wr.beginClose .deadline s.now none }
    else s.writerSettle
  | .faultRecord =>
    State.writerSettle
      { s with wr := { s.wr with page := s.wr.page.map (·.wrote 32 s.now), faultRecord := none, task := .none } }
  | .header c => { s with wr := { s.wr with task := .closed c } }
  | .closed c => s.closeComplete c
  | .none => s

/-- The task reads the slot table. -/
def WriterTask.reads : WriterTask → Bool
  | .table _ => true
  | .none | .reject _ _ | .fill _ | .record _ | .faultRecord | .header _ | .closed _ => false

/-- The answer to an access of the writer at an address (R139). After an ABORT in the initial fetch it is
discarded, whatever it is (R153); while an engine reset is pending read data is discarded (R166). -/
def State.writerAnswer (s : State) (address : Word) (a : Answer) : State :=
  if !s.writerWorks then { s with wr := { s.wr with task := .none } }
  else
    match a with
    | .okay d => if s.eng.resetPending && s.wr.task.reads then s else s.writerOkay d
    | .error | .outsideWindow => s.pathFailure address

/-! ## Events of the writer -/

/-- SLOT_TAKING is due: IDLE with a record at the head, or in a flush with only the fault record left
(R130, R142). -/
def State.slotTakingDue (s : State) : Bool :=
  s.writerWorks && s.wr.state == .idle && s.wr.task == .none &&
    (match s.wr.queue with
     | .record _ :: _ => true
     | [] => s.wr.flushing && s.wr.faultRecord.isSome
     | .closeMarker _ :: _ => false
     | .endMarker :: _ => false)

/-- The close marker at the head of the queue, when the writer can act on it (R126). -/
def State.closeMarkerDue (s : State) : Option CloseMarker :=
  if s.writerWorks && s.wr.task == .none && (s.wr.state == .idle || s.wr.state == .opened) then
    match s.wr.queue with
    | .closeMarker m :: _ => some m
    | _ => none
  else none

/-- The writer acts on a close marker (R126): it closes the open page, or with no page open settles the
cue at once. -/
def State.reachCloseMarker (s : State) (m : CloseMarker) : State :=
  let s := { s with wr := { s.wr with queue := s.wr.queue.tail } }
  match s.wr.state, s.wr.page with
  | .opened, some _ => { s with wr := s.wr.beginClose .cue s.now (some m) }
  | _, _ => (s.offerAll (closeReport m .empty)).writerSettle

/-- The end marker is at the head of the queue and the writer can act on it (R140; R142 step 3). -/
def State.endMarkerDue (s : State) : Bool :=
  s.writerWorks && s.wr.task == .none && (s.wr.state == .idle || s.wr.state == .opened) &&
    (match s.wr.queue with
     | .endMarker :: _ => true
     | _ => false)

/-- The writer acts on the end marker (R140): it is removed, and in a drain what stands behind it is
written out. In a flush it is removed without effect (R142). -/
def State.reachEndMarker (s : State) : State :=
  State.writerSettle { s with wr := { s.wr with queue := s.wr.queue.tail, endTaken := !s.wr.flushing } }

/-- The page deadline has been reached (R136): a page with a first record, and a running timebase at or
past first-record tick plus deadline, the sum formed without loss. -/
def State.deadlineReached (s : State) : Bool :=
  s.tb.runs && s.writerWorks && s.wr.state == .opened && s.params.deadline != 0 &&
    (match s.wr.page with
     | some p =>
       match p.firstTick with
       | some f => decide (f.toNat + s.params.deadline.toNat ≤ s.now.toNat)
       | none => false
     | none => false)

/-- A deadline expiry (R136): the page is closed with cause DEADLINE, once an outstanding record write has
been answered; a close already decided is not disturbed. -/
def State.takeDeadline (s : State) : State :=
  match s.wr.task with
  | .none => { s with wr := s.wr.beginClose .deadline s.now none }
  | .record _ => { s with wr := { s.wr with deadlineDue := true } }
  | .table _ | .reject _ _ | .fill _ | .faultRecord | .header _ | .closed _ => s

/-- The drain limit has expired (R134): the reread of the 16th scan event found no slot. The writer goes on while an
engine reset is pending (R145, R166), so this happens then too. -/
def State.drainLimitDue (s : State) : Bool :=
  s.eng.state == .draining && s.wr.state == .starved && s.wr.task == .none && s.wr.reread == .absent &&
    decide (Config.drainScanLimit ≤ s.wr.starveCount)

/-- Engine Control takes the report that the drain limit has expired (R158): DRAIN_LOSS, and with the end marker placed
the result path is complete. While an engine reset is pending it takes no report (R166). -/
def EngineControl.drainLost (g : EngineControl) : EngineControl :=
  if g.resetPending then g else { g with endCause := .drainLoss, pathComplete := g.pathComplete || g.markerPlaced }

/-- The drain limit has expired (R134): the writer discards its queue, is DONE and tells Engine Control. -/
def State.takeDrainLimit (s : State) : State := { s with wr := s.wr.stop, eng := s.eng.drainLost }

end Sys2Proof.Machine
end

