-- ==== Sys2Proof/Machine/Calendar.lean ====
section
/-! DEFINITION. Machine/Calendar.lean: the Calendar's order, insertion, expiry, dispatch, late handling and
retirement (Chapter 1), and the commands EXPIRY, LANE_HEAD_OFFER and the fifteen cue verbs. -/

namespace Sys2Proof.Machine

/-! ## Order and insertion (R14, R15) -/

/-- Calendar order (R14): due time, then lane, then lane sequence number. -/
def Entry.before (a b : Entry) : Bool :=
  decide (a.cue.due.toNat < b.cue.due.toNat) ||
    (a.cue.due == b.cue.due &&
      (decide (a.lane < b.lane) || (a.lane == b.lane && decide (a.seq.toNat < b.seq.toNat))))

/-- An entry placed at its position, without reordering the others (R14). -/
def insertEntry (e : Entry) : List Entry → List Entry
  | [] => [e]
  | f :: rest => if e.before f then e :: f :: rest else f :: insertEntry e rest

/-- Free entries (R13). -/
def State.freeEntries (s : State) : Nat := Config.calendarPlaces - s.cal.length

/-- A head offered by lane j is taken before one due at `due` on lane i: due time, then lane number (R15). -/
def State.takenBefore (s : State) (i : LaneId) (due : Tick) (j : LaneId) : Bool :=
  match s.offeredHead j with
  | some (_, c) => decide (c.due.toNat < due.toNat) || (c.due == due && decide (j < i))
  | none => false

/-- Lane i offers a head, and no other offered head comes before it (R15). -/
def State.leads (s : State) (i : LaneId) : Bool :=
  match s.offeredHead i with
  | some (_, c) => (List.finRange 4).all fun j => !s.takenBefore i c.due j
  | none => false

/-- The number of lanes that offer a head. -/
def State.offeredCount (s : State) : Nat := ((List.finRange 4).filter fun j => (s.offeredHead j).isSome).length

/-- The head lane i offers is taken now (R15): with free entries for all the offered heads any of them may be; with
fewer, but not none, the one that comes before the others. -/
def State.headTaken (s : State) (i : LaneId) : Option (Head × Cue) :=
  if decide (s.offeredCount ≤ s.freeEntries) || (decide (0 < s.freeEntries) && s.leads i) then s.offeredHead i else none

/-! ## Retirement (R4 to R6, R22) -/

/-- The outcome reported of a late RUN_LATE cue (Table 1-4). -/
def lateOutcome : CueOutcome → CueOutcome
  | .done | .doneReplacing | .already | .ignored | .empty => .doneLate
  | .doneLate => .doneLate
  | .skippedLate => .skippedLate
  | .partly => .partly
  | .refusedState => .refusedState
  | .refusedSettings => .refusedSettings
  | .refusedQueueFull => .refusedQueueFull
  | .refusedConverterOff => .refusedConverterOff
  | .malformed => .malformed
  | .order => .order

/-- A plain outcome, reported only when the report flag is 1 (R5). -/
def plainOutcome : CueOutcome → Bool
  | .done | .doneReplacing | .already | .ignored | .empty => true
  | .doneLate | .skippedLate | .partly | .refusedState | .refusedSettings | .refusedQueueFull
  | .refusedConverterOff | .malformed | .order => false

/-- An outcome that raises REFUSE at retirement: PARTIAL and any REFUSED_ outcome (R6). -/
def refusingOutcome : CueOutcome → Bool
  | .partly | .refusedState | .refusedSettings | .refusedQueueFull | .refusedConverterOff => true
  | .done | .doneReplacing | .already | .ignored | .empty | .doneLate | .skippedLate | .malformed | .order => false

/-- The CUE_REPORT of a dispatched or skipped entry (R5). -/
def cueReportOf (e : Entry) (outcome : CueOutcome) (now : Tick) (lateness : Option Half) : Rec :=
  .cueReport { lane := e.lane, seq := e.seq, code := e.cue.action.code, outcome, time := now,
               detail := lateness.getD 0, tag := e.cue.tag }

/-- The alerts of a retirement (R6). -/
def State.retireAlerts (s : State) (late refusing : Bool) : State :=
  let s := if late then s.raise .late else s
  if refusing then s.raise .refuse else s

/-- An entry is retired with its outcome (R4): counted by the Loader, reported when R5 requires it, and its
alerts raised. -/
def State.retireEntry (s : State) (e : Entry) (outcome : CueOutcome) (lateness : Option Half) : State :=
  let s := s.retire e.lane e.trailRef
  let s := if !plainOutcome outcome || e.cue.report then s.offer (cueReportOf e outcome s.now lateness) else s
  s.retireAlerts lateness.isSome (refusingOutcome outcome)

/-- The outcome of a dispatched entry from its target's outcome (R19). -/
def dispatchOutcome (lateness : Option Half) (outcome : CueOutcome) : CueOutcome :=
  if lateness.isSome then lateOutcome outcome else outcome

/-! ## Dispatch (R3, R9 to R12, R17) -/

/-- A channel takes its verb (R3): its records precede the cue's report (R5). -/
def State.dispatchChannel (s : State) (e : Entry) (lateness : Option Half) (ch : ChanId) (verb : ChanVerb) : State :=
  let r := (s.chan ch).take ch s.now e.cue.tag verb
  ((s.setChan ch r.1).offerAll r.2.2).retireEntry e (dispatchOutcome lateness r.2.1) lateness

/-- The Converter takes its verb (R3). -/
def State.dispatchConverter (s : State) (e : Entry) (lateness : Option Half) (verb : ConvVerb) : State :=
  let r := s.conv.take (.cue e.lane e.seq) e.cue.tag s.now s.tb.divider verb
  (({ s with conv := r.1 }).offerAll r.2.2).retireEntry e (dispatchOutcome lateness r.2.1) lateness

/-- NOTE (R10). -/
def State.dispatchNote (s : State) (e : Entry) (lateness : Option Half) (payload : BitVec 128) : State :=
  (s.offer (.note e.cue.tag (if e.cue.payloadPresent then some payload else none) s.now)).retireEntry e
    (dispatchOutcome lateness .done) lateness

/-- The close marker of a CLOSE_PAGE cue (R124). -/
def closeMarkerOf (e : Entry) (now : Tick) (lateness : Option Half) : CloseMarker :=
  { lane := e.lane, seq := e.seq, tag := e.cue.tag, report := e.cue.report, time := now, lateness }

/-- CLOSE_PAGE (R11): the marker joins a queue with a free place, and the cue is retired with its outcome
and report left to the marker; a full queue refuses it. A writer that keeps nothing discards the marker
(R141, R144). -/
def State.dispatchClosePage (s : State) (e : Entry) (lateness : Option Half) : State :=
  if s.wr.hasPlace then
    let s := if s.wr.keeps then
        { s with wr := { s.wr with queue := s.wr.queue ++ [.closeMarker (closeMarkerOf e s.now lateness)] } }
      else s
    (s.retire e.lane e.trailRef).retireAlerts lateness.isSome false
  else s.retireEntry e .refusedQueueFull lateness

/-- END (R12): the cue is retired and reported, then the drain begins. While an engine reset is pending
Engine Control begins no drain (R166). -/
def State.dispatchEnd (s : State) (e : Entry) (lateness : Option Half) : State :=
  let s := s.retireEntry e (dispatchOutcome lateness .done) lateness
  if s.eng.resetPending then s else s.beginDrain .endCue

/-- An entry's verb is handed to its target, and the entry is retired (R3, R4). -/
def State.dispatch (s : State) (e : Entry) (lateness : Option Half) : State :=
  match e.cue.action with
  | .channel ch verb => s.dispatchChannel e lateness ch verb
  | .converter verb => s.dispatchConverter e lateness verb
  | .engine (.note payload) => s.dispatchNote e lateness payload
  | .engine .closePage => s.dispatchClosePage e lateness
  | .engine .endCue => s.dispatchEnd e lateness

/-- The lateness of an entry at now: absent when it is not late (R5). -/
def State.lateness (s : State) (e : Entry) : Option Half :=
  if e.cue.due.toNat < s.now.toNat then some (satHalf (s.now.toNat - e.cue.due.toNat)) else none

/-- An entry that has left the Calendar is dispatched, or skipped when it is late with late policy SKIP
(R17, R19, R20). -/
def State.handleEntry (s : State) (e : Entry) : State :=
  match s.lateness e, e.cue.late with
  | some l, .skip => s.retireEntry e .skippedLate (some l)
  | l, _ => s.dispatch e l

/-- The earliest entry has expired: RUNNING, and its due time reached (R17). -/
def State.expiredEntry (s : State) : Option Entry :=
  match s.cal with
  | e :: _ => if s.eng.state == .running && decide (e.cue.due.toNat ≤ s.now.toNat) then some e else none
  | [] => none

/-- The earliest entry, expired, leaves the Calendar and is handled (R17). -/
def State.takeExpiry (s : State) : State :=
  match s.expiredEntry with
  | some e => State.handleEntry { s with cal := s.cal.tail } e
  | none => s

/-- Expired entries handled one after another, at most `fuel` of them. -/
def State.takeExpiries (s : State) : Nat → State
  | 0 => s
  | fuel + 1 => if s.expiredEntry.isSome then s.takeExpiry.takeExpiries fuel else s

/-! ## Insertion (R15, R16) -/

/-- The entry a head becomes (R13). The late mark is set in PREPARING and ARMED for a cue due before the
start time (R16). -/
def State.entryOf (s : State) (i : LaneId) (h : Head) (c : Cue) : Entry :=
  { cue := c, lane := i, seq := h.seq, trailRef := h.trailRef,
    lateMark := s.eng.state != .running && decide (c.due.toNat < s.now.toNat) }

/-- No entry the Calendar holds comes before this one (R14). -/
def State.standsFirst (s : State) (e : Entry) : Bool := s.cal.all fun f => e.before f

/-- The Calendar takes lane i's head, which leaves the lane (R15). In RUNNING a cue that is late is placed
first and handled at once (R16, R19, R20). Where an entry that comes before it is still to be handled at this tick, it
stands in its place behind that entry, and is handled in Calendar order (R18, R22). -/
def State.takeHead (s : State) (i : LaneId) (h : Head) (c : Cue) : State :=
  let e := s.entryOf i h c
  let s := s.setLane i { s.lane i with head := none }
  if s.eng.state = .running ∧ c.due.toNat < s.now.toNat ∧ s.standsFirst e then s.handleEntry e
  else { s with cal := insertEntry e s.cal }

/-- An offer of lane i's head. -/
def State.offerHead (s : State) (i : LaneId) : State :=
  match s.headTaken i with
  | some (h, c) => s.takeHead i h c
  | none => s

/-! ## The start of a session (R21, R156) -/

/-- The session starts: RUNNING, the timebase runs from the start time, and at this first tick the
late-marked entries and those due at the start time are handled (assumption log 18). At the start time 2^48 - 1 the
fault TIMEBASE_END falls on this tick too and may come before them, so they stay for the commands of the tick (R155). -/
def State.startSession (s : State) : State :=
  let s := { s with eng := { s.eng with state := .running }, tb := { s.tb with runs := true } }
  if s.tb.count = BitVec.allOnes 48 then s else s.takeExpiries s.cal.length

/-! ## Commands -/

/-- EXPIRY (R17). -/
def execExpiry (s : State) : Host.Outcome State Fault Refusal := act s State.takeExpiry

/-- LANE_HEAD_OFFER (R15). -/
def execLaneHeadOffer (i : LaneId) (s : State) : Host.Outcome State Fault Refusal := act s fun s => s.offerHead i

/-- A cue verb's row: the expired earliest entry, when its action is one of `p`, is dispatched
(assumption log 4). -/
def State.takeCue (s : State) (p : Action → Bool) : State :=
  match s.expiredEntry with
  | some e => if p e.cue.action then s.takeExpiry else s
  | none => s

def isSet (ch : ChanId) : Action → Bool
  | .channel c (.set _) => c == ch
  | _ => false

def isStage (ch : ChanId) : Action → Bool
  | .channel c (.stage _) => c == ch
  | _ => false

def isReference : Action → Bool
  | .converter (.reference _) => true
  | _ => false

def isConvert : Action → Bool
  | .converter (.convert _) => true
  | _ => false

/-- SET (R62): Channel.set. -/
def execSet (ch : ChanId) (s : State) : Host.Outcome State Fault Refusal := act s fun s => s.takeCue (isSet ch)

/-- START (R63, R64): Channel.start. -/
def execStart (ch : ChanId) (s : State) : Host.Outcome State Fault Refusal :=
  act s fun s => s.takeCue (· == .channel ch .start)

/-- STOP (R65): Channel.stop. -/
def execStop (ch : ChanId) (s : State) : Host.Outcome State Fault Refusal :=
  act s fun s => s.takeCue (· == .channel ch .stop)

/-- PAUSE (R66): Channel.pause. -/
def execPause (ch : ChanId) (s : State) : Host.Outcome State Fault Refusal :=
  act s fun s => s.takeCue (· == .channel ch .pause)

/-- RESUME (R67): Channel.resume. -/
def execResume (ch : ChanId) (s : State) : Host.Outcome State Fault Refusal :=
  act s fun s => s.takeCue (· == .channel ch .resume)

/-- STAGE (R69): Channel.stage. -/
def execStage (ch : ChanId) (s : State) : Host.Outcome State Fault Refusal := act s fun s => s.takeCue (isStage ch)

/-- FIRE (R91): Channel.fire. -/
def execFire (ch : ChanId) (s : State) : Host.Outcome State Fault Refusal :=
  act s fun s => s.takeCue (· == .channel ch .fire)

/-- SNAPSHOT (R68): Channel.snapshotRecord. -/
def execSnapshot (ch : ChanId) (s : State) : Host.Outcome State Fault Refusal :=
  act s fun s => s.takeCue (· == .channel ch .snapshot)

/-- POWER_ON (R107): Converter.powerOn. -/
def execPowerOn (s : State) : Host.Outcome State Fault Refusal := act s fun s => s.takeCue (· == .converter .powerOn)

/-- POWER_OFF (R109): Converter.powerOff. -/
def execPowerOff (s : State) : Host.Outcome State Fault Refusal := act s fun s => s.takeCue (· == .converter .powerOff)

/-- REFERENCE (R110): Converter.reference. -/
def execReference (s : State) : Host.Outcome State Fault Refusal := act s fun s => s.takeCue isReference

/-- CONVERT (R114): Converter.convert. -/
def execConvert (s : State) : Host.Outcome State Fault Refusal := act s fun s => s.takeCue isConvert

/-- NOTE (R10). -/
def execNote (s : State) : Host.Outcome State Fault Refusal := act s fun s => s.takeCue Action.isNote

/-- CLOSE_PAGE (R11). -/
def execClosePage (s : State) : Host.Outcome State Fault Refusal := act s fun s => s.takeCue (· == .engine .closePage)

/-- END (R12). -/
def execEndCue (s : State) : Host.Outcome State Fault Refusal := act s fun s => s.takeCue (· == .engine .endCue)

end Sys2Proof.Machine
end

