-- ==== Sys2Proof/Machine/Port.lean ====
section
/-! DEFINITION. Machine/Port.lean: the Memory Port (Chapter 8): presenting and checking a request, arbitration,
grants, acceptance by the bus, responses, timeouts and the quiet interval. -/

namespace Sys2Proof.Machine

/-! ## Answers -/

/-- An abort of a preparation goes on after each answer, as far as it can (R153). -/
def State.afterAnswer (s : State) : State :=
  if s.eng.state == .preparing && s.eng.aborting && !s.eng.resetPending then s.prepareAbortEnd else s

/-- The port hands an answer to a requester, whose request `rq` has become none (R171, R172). -/
def State.answer (s : State) (r : Requester) (rq : Request) (a : Answer) : State :=
  match r with
  | .loader => (s.loaderAnswer a).afterAnswer
  | .writer => (s.writerAnswer rq.addr a).afterAnswer
  | .engine => (s.engineAnswer a).afterAnswer

/-! ## The window check (R169) -/

/-- The request passes the window check: all its bytes lie in the window, while one is in force. -/
def State.windowPasses (s : State) (rq : Request) : Bool :=
  match s.port.window with
  | some w => w.holds rq.addr.toNat rq.len
  | none => true

/-- A request presented: it waits for a grant, or is answered OUTSIDE_WINDOW at once. -/
def State.present (s : State) (r : Requester) (rq : Request) : State :=
  if s.windowPasses rq then { s with port := s.port.setRequest r (.waiting rq) }
  else s.answer r rq .outsideWindow

/-! ## What each requester presents (R29, R30, Table 8-2) -/

/-- The Loader issues the access it chooses: the rotation goes on from the lane after it. A cue read with
the sequence counter at its limit is not issued and faults the lane (R30). -/
def State.presentLane (s : State) (i : LaneId) (k : LaneAccessKind) : State :=
  let l := s.lane i
  if k = .cue ∧ l.seqCounter = BitVec.allOnes 32 then s.laneFault i .sequenceLimit l.current
  else
    let t := l.accessRequest k
    let s := { s with loader := { s.loader with nextLane := i + 1, access := some { lane := i, kind := k, segment := t.1 } } }
    s.present .loader t.2

def State.presentLoader (s : State) : State :=
  if s.loaderWorks then
    match s.chosenAccess with
    | some (i, k) => s.presentLane i k
    | none => s
  else s

def State.presentWriter (s : State) : State :=
  if s.writerWorks then
    match s.writerWants with
    | some (rq, task) => State.present { s with wr := { s.wr with task := task } } .writer rq
    | none => s
  else s

def State.presentEngine (s : State) : State :=
  match s.engineWants with
  | some rq => s.present .engine rq
  | none => s

/-- A requester may present: its last request has been answered, and no engine reset is pending (R168,
R176). -/
def State.mayPresent (s : State) (r : Requester) : Bool := (s.port.request r).isNone && !s.eng.resetPending

def State.presentRequest (s : State) (r : Requester) : State :=
  if s.mayPresent r then
    match r with
    | .loader => s.presentLoader
    | .writer => s.presentWriter
    | .engine => s.presentEngine
  else s

/-! ## Arbitration (R170, R171) -/

/-- The requester granted next, for a result queue of `items` items. -/
def Port.choice (p : Port) (items : Nat) : Option Requester :=
  if p.engine.isWaiting then some .engine
  else if p.writer.isWaiting && decide (Config.busyResultQueue ≤ items) then some .writer
  else
    match p.loader.isWaiting, p.writer.isWaiting with
    | true, false => some .loader
    | false, true => some .writer
    | false, false => none
    | true, true =>
      match p.lastServed with
      | .writer => some .loader
      | .loader => some .writer

/-- Last served after a grant: a grant to Engine Control leaves it. -/
def Port.servedAfter (p : Port) : Requester → LastServed
  | .loader => .loader
  | .writer => .writer
  | .engine => p.lastServed

/-- A grant to a requester whose request waits (R171): it carries the issue number, which goes up, and holds
the request path from the grant time on. -/
def Port.grant (p : Port) (r : Requester) (rq : Request) (time : Nat) : Port :=
  { (p.setRequest r (.outstanding rq (p.issue r) time)).setIssue r (p.issue r + 1) with
    path := some r, lastServed := p.servedAfter r }

/-- The arbiter can make a grant: the path is free, no quiet interval runs (R177), no reset is pending
(R176). -/
def State.mayGrant (s : State) : Bool :=
  s.port.path.isNone && s.port.quiet.isNone && !s.eng.resetPending

/-- The arbiter's grant at a reading of the reference clock. -/
def State.takeGrant (s : State) (reading : Nat) : State :=
  if s.mayGrant then
    match s.port.choice s.wr.queue.length with
    | some r =>
      match s.port.request r with
      | .waiting rq => State.setClock { s with port := s.port.grant r rq (s.clockAt reading) } reading
      | .none => s
      | .outstanding _ _ _ => s
    | none => s
  else s

/-- The bus has accepted the request on the path (R171). -/
def State.takeAccept (s : State) : State := { s with port := { s.port with path := none } }

/-! ## Ends of transactions (R172, R173, R177) -/

/-- The transaction of a requester ends: its request becomes none, and a path it still holds is free. -/
def Port.ended (p : Port) (r : Requester) : Port :=
  { p.setRequest r .none with path := if p.path = some r then none else p.path }

def responseAnswer (okay : Bool) (data : BusData) : Answer := if okay then .okay data else .error

/-- A response (R172): matched by requester and issue number it ends the transaction; else, and in the quiet
interval (R177), it is discarded. -/
def State.takeResponse (s : State) (r : Requester) (issue : Byte) (okay : Bool) (data : BusData) : State :=
  match s.port.quiet, s.port.request r with
  | none, .outstanding rq n _ =>
    if n = issue then State.answer { s with port := s.port.ended r } r rq (responseAnswer okay data) else s
  | _, _ => s

/-- A timeout (R173): 40 microseconds after the grant the transaction ends and the requester is answered
ERROR. -/
def State.takeTimeout (s : State) (r : Requester) (reading : Nat) : State :=
  match s.port.request r with
  | .outstanding rq _ granted =>
    if granted + Config.fortyMicroseconds ≤ s.clockAt reading then
      State.answer (State.setClock { s with port := s.port.ended r } reading) r rq .error
    else s
  | .none => s
  | .waiting _ => s

/-- The quiet interval has lasted 40 microseconds (R177). -/
def State.takeQuietEnd (s : State) (reading : Nat) : State :=
  match s.port.quiet with
  | some since =>
    if since + Config.fortyMicroseconds ≤ s.clockAt reading then
      State.setClock { s with port := { s.port with quiet := none } } reading
    else s
  | none => s

/-! ## Commands -/

/-- REQUEST_PRESENT (R169). -/
def execRequestPresent (r : Requester) (s : State) : Host.Outcome State Fault Refusal := act s fun s => s.presentRequest r

/-- GRANT (R170, R171). -/
def execGrant (reading : Nat) (s : State) : Host.Outcome State Fault Refusal := act s fun s => s.takeGrant reading

/-- BUS_ACCEPT (R171). -/
def execBusAccept (s : State) : Host.Outcome State Fault Refusal := act s State.takeAccept

/-- RESPONSE (R172). -/
def execResponse (r : Requester) (issue : Byte) (okay : Bool) (data : BusData) (s : State) :
    Host.Outcome State Fault Refusal := act s fun s => s.takeResponse r issue okay data

/-- TIMEOUT (R173). -/
def execTimeout (r : Requester) (reading : Nat) (s : State) : Host.Outcome State Fault Refusal :=
  act s fun s => s.takeTimeout r reading

/-- QUIET_INTERVAL_END (R177). -/
def execQuietIntervalEnd (reading : Nat) (s : State) : Host.Outcome State Fault Refusal :=
  act s fun s => s.takeQuietEnd reading

end Sys2Proof.Machine
end

