-- ==== Sys2Proof/Machine/Registers.lean ====
section
/-! DEFINITION. Machine/Registers.lean: what the host commands through the register window (sections 7.2, 7.3,
7.10, 9.1), and the resets (section 7.11, R176, R177). -/

namespace Sys2Proof.Machine

/-! ## Acceptance (R147) -/

/-- The command sets the command result to ACCEPTED and takes its effect, or is REFUSED and changes nothing
else. While an engine reset is pending PREPARE, START, STOP and ABORT are REFUSED. -/
def State.command (s : State) (allowed : Bool) (f : State → State) : State :=
  if allowed && !s.eng.resetPending then f (s.setResult .accepted) else s.setResult .refused

/-! ## PREPARE (R148, R149) -/

/-- The session number after an accepted PREPARE: from 65535 it goes to 1. -/
def nextSession (n : Half) : Half := if n = BitVec.allOnes 16 then 1 else n + 1

/-- An accepted PREPARE (R149). The Converter is left as it was, with the closing cause of an earlier session, until the
checks have passed (R123, R151), although R119 has none in PREPARING (the model's reading, assumption log 40). -/
def State.beginPrepare (s : State) : State :=
  let s := { s with
    eng := { s.eng with state := .preparing, windDown := false, session := nextSession s.eng.session,
                        cba := s.win.base, prepError := .none, endCause := .none, faultCode := none,
                        faultAddr := 0, secondary := false, checked := false, aborting := false,
                        task := .readFirst }
    port := { s.port with window := none, lastServed := .writer } }
  if s.eng.cba.toNat % 512 = 0 then s else s.failPrepare .badWindow

/-! ## STOP and ABORT (R147, R157, R159) -/

/-- STOP is accepted in ARMED and RUNNING. -/
def State.stopAllowed (s : State) : Bool := s.eng.state == .armed || s.eng.state == .running

def State.takeStop (s : State) : State :=
  s.beginDrain (if s.eng.state = .armed then .notStarted else .stopCommand)

/-- ABORT is accepted in PREPARING, unless an abort is already in progress, and in ARMED, RUNNING and
DRAINING. -/
def State.abortAllowed (s : State) : Bool :=
  match s.eng.state with
  | .preparing => !s.eng.aborting
  | .armed | .running | .draining => true
  | .off | .ended | .faulted => false

def State.takeAbort (s : State) : State :=
  if s.eng.state = .preparing then s.abortPreparation else s.abortSession

/-! ## NUDGE (R165) -/

/-- The engine states in which a NUDGE gives a STARVED writer a reread request. -/
def State.nudgesWriter (s : State) : Bool :=
  match s.eng.state with
  | .preparing => !s.eng.aborting
  | .armed | .running | .draining => true
  | .off | .ended | .faulted => false

def State.nudge (s : State) : State :=
  if s.eng.resetPending then s
  else if s.nudgesWriter then s.lanesReread.writerReread
  else s.lanesReread

/-! ## Resets (R166, R167, R176, R177) -/

/-- The waiting requests of all requesters are withdrawn, and taken as not made (R176). -/
def State.withdrawAll (s : State) : State :=
  { s with
    port := { s.port with loader := s.port.loader.withdrawn, writer := s.port.writer.withdrawn,
                          engine := s.port.engine.withdrawn }
    loader := { s.loader with access := if s.port.loader.isWaiting then none else s.loader.access }
    eng := { s.eng with staleRead := s.eng.staleRead && !s.port.engine.isWaiting } }

/-- An accepted RESET begins an engine reset; one more while it is pending has no further effect. -/
def State.beginReset (s : State) : State :=
  if s.eng.resetPending then s else State.withdrawAll { s with eng := { s.eng with resetPending := true } }

/-- The pins after a reset: every output line is driven LOW (R76). -/
def Pins.lowered (p : Pins) : Pins := { p with tout := Vector.replicate 16 .low }

/-- An engine reset takes effect (R166). BASE, ALERT_ENABLE and the session number keep their values, and
so do the input pins, the reference clock and a quiet interval. -/
def State.engineReset (s : State) : State :=
  { pending := s.pending
    eng := { EngineControl.reset with session := s.eng.session, cba := s.eng.cba, result := .accepted }
    tb := .reset
    params := .reset
    cal := []
    loader := .reset
    chans := Vector.replicate 16 Channel.reset
    links := []
    conv := .reset s.conv.samples
    wr := .reset
    port := .reset s.port.quiet
    win := { RegisterWindow.reset with base := s.win.base, enable := s.win.enable, busRead := s.win.busRead }
    pins := s.pins.lowered }

/-- The engine reset is due: every outstanding transaction has completed (R166, R176). -/
def State.engineResetDue (s : State) : Bool := s.eng.resetPending && s.port.quietBus

def State.takeEngineReset (s : State) : State := if s.engineResetDue then s.engineReset else s

/-- A device reset (R167, R177): every block at its device reset values at once, and held there. -/
def State.deviceReset (s : State) : State :=
  { State.reset with
    pending := s.pending
    conv := .reset s.conv.samples
    port := .reset none
    pins := { s.pins.lowered with resetHeld := true } }

/-- The device reset ends, and the quiet interval runs from that moment (R177). -/
def State.deviceResetEnd (s : State) (reading : Nat) : State :=
  if s.pins.resetHeld then
    State.setClock
      { s with port := { s.port with quiet := some (s.clockAt reading) }, pins := { s.pins with resetHeld := false } }
      reading
  else s

/-! ## Register writes and the TIME_LO read (R178, R180, R181) -/

def State.writeBase (s : State) (value : Word) : State :=
  if s.betweenSessions && !s.eng.resetPending then { s with win := { s.win with base := value } }
  else s.setResult .refused

def State.writeAlert (s : State) (value : Word) : State :=
  { s with win := { s.win with alert := s.win.alert &&& ~~~(value.setWidth 8) } }

def State.writeEnable (s : State) (value : Word) : State :=
  { s with win := { s.win with enable := value.setWidth 8 } }

/-- A read of TIME_LO, of any width, takes the word of bits 31 to 0 of the timebase and copies bits 47 to 32 into the
latch (R178, R181). -/
def State.readTimeLo (s : State) : State :=
  { s with win := { s.win with busRead := s.timeLo, timeHi := s.tb.count.extractLsb' 32 16 } }

/-- What the last read of TIME_LO returned, when it was one of `bytes` bytes from byte `first` on: the addressed bytes
of the word, all of it for a full read (R178). -/
def State.timeLoReturned (s : State) (first : Fin 4) (bytes : Fin 5) : Word :=
  addressedBytes s.win.busRead first.val bytes.val

/-! ## What an access of the window is (R147, R178) -/

/-- The command that a value written to CONTROL gives: PREPARE 1, START 2, STOP 3, ABORT 4, NUDGE 5, RESET 6, as the
whole value written; any other is unassigned (section 9.1, R147). -/
def controlCommand (value : Word) : Instr :=
  match value.toNat with
  | 1 => .prepare
  | 2 => .startCommand
  | 3 => .stopCommand
  | 4 => .abort
  | 5 => .nudge
  | 6 => .reset
  | _ => .unknownCommand value

/-- The command that a write of `bytes` bytes at an offset of the window is: a whole word at CONTROL, BASE, ALERT or
ALERT_ENABLE takes its effect, every other write is ignored (Table 9-1, R178). That a write of four bytes at an offset
that is no multiple of 4 is ignored too is the model's choice (assumption log 38). -/
def registerWrite (offset : BitVec 5) (bytes : Fin 5) (value : Word) : Instr :=
  if bytes = 4 ∧ offset = 0x04 then controlCommand value
  else if bytes = 4 ∧ offset = 0x00 then .baseWrite value
  else if bytes = 4 ∧ offset = 0x0C then .alertWrite value
  else if bytes = 4 ∧ offset = 0x10 then .alertEnableWrite value
  else .ignoredRegisterWrite offset bytes value

/-- The command that a read at an offset of the window is, whatever its width: that of TIME_LO, which returns
State.timeLoReturned; a read of any other register has no effect, and returns State.readRegister (R178, R179, R181). -/
def registerRead (offset : BitVec 5) : Option Instr := if offset.toNat / 4 = 5 then some .timeLoRead else none

/-! ## Commands -/

/-- PREPARE (R149): in OFF, and in ENDED or FAULTED with wind-down complete set. -/
def execPrepare (s : State) : Host.Outcome State Fault Refusal :=
  act s fun s => s.command s.betweenSessions State.beginPrepare

/-- START_COMMAND (R156): in ARMED, whatever the start source. -/
def execStartCommand (s : State) : Host.Outcome State Fault Refusal :=
  act s fun s => s.command (s.eng.state == .armed) State.startSession

/-- STOP_COMMAND (R157). -/
def execStopCommand (s : State) : Host.Outcome State Fault Refusal :=
  act s fun s => s.command s.stopAllowed State.takeStop

/-- ABORT (R159, R153). -/
def execAbort (s : State) : Host.Outcome State Fault Refusal :=
  act s fun s => s.command s.abortAllowed State.takeAbort

/-- NUDGE (R165): accepted in every state, pending reset included. -/
def execNudge (s : State) : Host.Outcome State Fault Refusal := act s fun s => (s.setResult .accepted).nudge

/-- RESET (R166): accepted in every state. -/
def execReset (s : State) : Host.Outcome State Fault Refusal := act s fun s => (s.setResult .accepted).beginReset

/-- UNKNOWN_COMMAND (R147): a code that Chapter 9 does not assign. -/
def execUnknownCommand (code : Word) (s : State) : Host.Outcome State Fault Refusal :=
  act s fun s => if unassignedCode code then s.setResult .unknown else s

/-- BASE_WRITE (R178). -/
def execBaseWrite (value : Word) (s : State) : Host.Outcome State Fault Refusal := act s fun s => s.writeBase value

/-- ALERT_WRITE (R180). -/
def execAlertWrite (value : Word) (s : State) : Host.Outcome State Fault Refusal := act s fun s => s.writeAlert value

/-- ALERT_ENABLE_WRITE (R180). -/
def execAlertEnableWrite (value : Word) (s : State) : Host.Outcome State Fault Refusal :=
  act s fun s => s.writeEnable value

/-- TIME_LO_READ (R181). -/
def execTimeLoRead (s : State) : Host.Outcome State Fault Refusal := act s State.readTimeLo

/-- IGNORED_REGISTER_WRITE (R178): the write is ignored. -/
def execIgnoredRegisterWrite (_offset : BitVec 5) (_bytes : Fin 5) (_value : Word) (s : State) :
    Host.Outcome State Fault Refusal := act s id

/-- DEVICE_RESET (R167): taken at any moment, while the line is held low too. -/
def execDeviceReset (s : State) : Host.Outcome State Fault Refusal := .next s.deviceReset

/-- DEVICE_RESET_END (R177). -/
def execDeviceResetEnd (reading : Nat) (s : State) : Host.Outcome State Fault Refusal := .next (s.deviceResetEnd reading)

/-- ENGINE_RESET (R166). -/
def execEngineReset (s : State) : Host.Outcome State Fault Refusal := act s State.takeEngineReset

end Sys2Proof.Machine
end

