-- ==== Sys2Proof/Machine/Events.lean ====
section
/-! DEFINITION. Machine/Events.lean: ticks, lines, links, Converter ends, the writer's events, and the steps by
which Engine Control arms and ends a session (R33, R40, R54, R78, R100, R101, R126 to R142, R152 to R164). -/

namespace Sys2Proof.Machine

/-! ## Lines and tick arrivals -/

/-- The START line sampled at a level has the edge the start source selects (R156). -/
def State.startEdge (s : State) (level : Level) : Bool :=
  match s.params.startSource, edgeOf s.eng.lastStart level with
  | .lineRise, some .rise => true
  | .lineFall, some .fall => true
  | _, _ => false

/-- A sample of the START line by Engine Control: it becomes the last START sample, and in ARMED a selected
edge starts the session (R156), unless an engine reset is pending (assumption log 19). Each START_LINE_EDGE is a sample of
its own, also a second one within a tick (the model's choice, assumption log 44). -/
def State.sampleStart (s : State) (level : Level) : State :=
  if s.sessionAlive then
    let s' := { s with eng := { s.eng with lastStart := level } }
    if s.eng.state == .armed && s.startEdge level && !s.eng.resetPending then s'.startSession else s'
  else s

/-- The START line is now at a level. -/
def State.startLine (s : State) (level : Level) : State := { s with pins := { s.pins with start := level } }

/-- The input line of a channel is now at a level. -/
def State.inputLine (s : State) (ch : ChanId) (level : Level) : State :=
  { s with pins := { s.pins with tin := s.pins.tin.set ch.val level ch.isLt } }

/-- Channel `ch` may take its tick arrival: the session is alive, and it has taken none at this tick (R54). -/
def State.arrivalDue (s : State) (ch : ChanId) : Bool := s.sessionAlive && !(s.chan ch).arrived

/-- The tick arrival of a channel (R54): its links are sent out and its record offered. -/
def State.takeArrival (s : State) (ch : ChanId) (level : Level) : State :=
  if s.arrivalDue ch then
    let r := (s.chan ch).arrival ch s.now level
    (State.setChan { s with links := s.links ++ r.2.1 } ch r.1).offerAll r.2.2
  else s

/-! ## Links under way (R100, R101, R115) -/

def LinkDelivery.firesFrom (d : LinkDelivery) (source target : ChanId) : Bool :=
  d.source == source && d.link == .fire target

/-- The delivery is a conversion request on its way to the Converter. -/
def LinkDelivery.asksConversion (d : LinkDelivery) : Bool :=
  match d.link with
  | .convert _ => true
  | .none => false
  | .fire _ => false

def LinkDelivery.converts (d : LinkDelivery) (source : ChanId) : Bool := d.source == source && d.asksConversion

/-- A delivered FIRE is a trigger of channel n; what becomes of it is told to no one (R101). -/
def State.takeFire (s : State) (source target : ChanId) : State :=
  match s.links.find? (·.firesFrom source target) with
  | some d => State.setChan { s with links := s.links.erase d } target ((s.chan target).trigger s.now).1
  | none => s

/-- A conversion request of a CONVERT link arrives at the Converter (R115, R121). -/
def State.takeLinkRequest (s : State) (source : ChanId) : State :=
  match s.links.find? (·.converts source) with
  | some d =>
    match d.link with
    | .convert k =>
      let r := s.conv.linkRequest { input := k, source := .link source d.kind, tag := d.tag } s.now s.tb.divider
      State.offerAll { s with links := s.links.erase d, conv := r.1 } r.2
    | .none => s
    | .fire _ => s
  | none => s

/-- One delivery under way, taken. -/
def State.takeLink (s : State) (d : LinkDelivery) : State :=
  match d.link with
  | .fire n => s.takeFire d.source n
  | .convert _ => s.takeLinkRequest d.source
  | .none => s

/-! ## Ends of the Converter's operations (R108, R111, R113, R120) -/

def State.takeReady (s : State) (power : PowerState) : State :=
  if s.conv.ends power s.now then { s with conv := s.conv.becomeReady s.now s.tb.divider } else s

/-- The end of a conversion: its SAMPLE is produced; in a drain the Converter then reports itself idle. -/
def State.takeConversionEnd (s : State) : State :=
  if s.conv.ends .converting s.now then
    let r := s.conv.conversionEnd s.now s.tb.divider
    let s := State.offerAll { s with conv := r.1 } r.2
    if s.eng.state == .draining && r.1.idle then { s with eng := { s.eng with converterIdle := true } } else s
  else s

/-! ## Scan events and the end of the timebase (R33, R155) -/

/-- The engine is in a state in which scan events occur. -/
def State.scans (s : State) : Bool :=
  match s.eng.state with
  | .armed | .running | .draining => true
  | .off | .preparing | .ended | .faulted => false

def State.scanDue (s : State) : Bool := s.scans && decide (s.params.scanPeriod.toNat ≤ s.tb.scanCount)

/-- A scan event: each WAITING lane and a STARVED writer receive a reread request (R33, R134). -/
def State.takeScan (s : State) : State :=
  if s.scanDue then (State.lanesReread { s with tb := { s.tb with scanCount := 0 } }).writerScan else s

/-- The timebase has reached its last value while it runs (R155). -/
def State.timebaseEndDue (s : State) : Bool :=
  s.tb.runs && s.tb.count == BitVec.allOnes 48 && (s.eng.state == .running || s.eng.state == .draining)
    && !s.eng.resetPending

def State.takeTimebaseEnd (s : State) : State := if s.timebaseEndDue then s.fatalFault .timebaseEnd 0 else s

def State.takeDeadlineExpiry (s : State) : State := if s.deadlineReached then s.takeDeadline else s

/-! ## The tick of the session's tick clock (R154; assumption log 3) -/

/-- Calendar entries due at the ending tick and heads offered at it, one after another. Of several heads offered the
one due earliest goes first, then the lowest lane, also where there are free entries for all of them: R15 orders them
only where there are too few (the model's choice, assumption log 3). -/
def State.settleCalendar (s : State) : Nat → State
  | 0 => s
  | n + 1 =>
    if s.expiredEntry.isSome then s.takeExpiry.settleCalendar n
    else
      match (List.finRange 4).find? (fun i => s.leads i && (s.headTaken i).isSome) with
      | some i => (s.offerHead i).settleCalendar n
      | none => s

/-- Tick arrivals not yet taken at the ending tick, with the levels the lines hold. -/
def State.settleArrivals (s : State) : List ChanId → State
  | [] => s
  | ch :: rest => (s.takeArrival ch s.pins.tin[ch]).settleArrivals rest

/-- Link deliveries still under way. -/
def State.settleLinks (s : State) : List LinkDelivery → State
  | [] => s
  | d :: rest => (s.takeLink d).settleLinks rest

/-- What the rules place at the ending tick and the queue has not taken (assumption log 3). -/
def State.finishTick (s : State) : State :=
  let s := s.takeEngineReset
  let s := s.settleCalendar (s.cal.length + 12)
  let s := ((s.takeReady .warming).takeReady .settling).takeConversionEnd
  let s := s.settleArrivals (List.finRange 16)
  let s := s.settleLinks s.links
  s.takeScan.takeDeadlineExpiry.takeTimebaseEnd

/-- Each output line presents the level its channel holds once every event of the tick is taken (R78). -/
def State.presentOutputs (s : State) : State :=
  { s with pins := { s.pins with tout := Vector.ofFn fun i : ChanId => (s.chans[i]).output } }

/-- The next tick begins: a running timebase rises by 1 and stays at its last value (R154, R155), the tick
counts toward the scan period, and each channel may take the new tick's arrival. -/
def State.beginTick (s : State) : State :=
  State.mapChans
    { s with tb := { s.tb with
        count := if s.tb.runs && s.tb.count != BitVec.allOnes 48 then s.tb.count + 1 else s.tb.count,
        scanCount := if s.scans then s.tb.scanCount + 1 else s.tb.scanCount } }
    fun _ c => { c with arrived := !s.sessionAlive }

def State.takeTick (s : State) : State := s.finishTick.presentOutputs.beginTick

/-! ## Engine Control's steps -/

/-- A lane's position lets the initial fetch be complete (R40). -/
def State.laneFetched (s : State) (i : LaneId) : Bool :=
  let reading := match s.loader.access with
    | some a => a.lane == i && a.kind != .status && s.port.loader.isOutstanding
    | none => false
  match (s.lane i).state with
  | .off => true
  | .waiting | .blocked | .ended | .faulted => !reading
  | .active | .stopped => false

/-- A lane holds a head that is not offered, or that finds no free entry (R40). -/
def State.laneHolds (s : State) (i : LaneId) : Bool :=
  (s.lane i).head.isSome && ((s.offeredHead i).isNone || s.freeEntries == 0)

/-- The initial fetch is complete, and Engine Control can take it (R40, R152). -/
def State.initialFetchDone (s : State) : Bool :=
  s.initialFetch && !s.eng.resetPending && (List.finRange 4).all fun i => s.laneFetched i || s.laneHolds i

/-- The engine becomes ARMED, and scan periods are counted from here (R152, R33). -/
def State.takeInitialFetchComplete (s : State) : State :=
  if s.initialFetchDone then
    { s with eng := { s.eng with state := .armed }, tb := { s.tb with scanCount := 0 } }
  else s

/-- The Loader is quiet: in a drain nothing of it is at the port, a request that still waits for its grant included (R48
with R175, assumption log 34), and no status write is pending; in an
abort or a wind-down its transaction has completed (R49). -/
def State.quietDue (s : State) : Bool :=
  if s.eng.state == .draining then s.loader.access.isNone && s.port.loader.isNone && s.chosenAccess.isNone
  else s.windingDown && s.port.loader.isNone

def State.takeLoaderQuiet (s : State) : State :=
  if s.quietDue && !s.eng.resetPending then { s with eng := { s.eng with loaderQuiet := true } } else s

/-- Engine Control can offer the end marker (R158, step 2): not while a conversion request of a link is still under way,
whose DROP record stands before the end marker (R120). -/
def State.endMarkerOfferDue (s : State) : Bool :=
  s.eng.state == .draining && !s.eng.resetPending && s.eng.converterIdle && s.eng.loaderQuiet
    && !s.eng.markerPlaced && !s.links.any LinkDelivery.asksConversion

/-- The end marker is placed in the first free place; a DONE writer takes it as reached at once (R140, R144). -/
def State.placeEndMarker (s : State) : State :=
  if s.wr.state = .done then { s with eng := { s.eng with markerPlaced := true, pathComplete := true } }
  else if s.wr.hasPlace then
    { s with wr := { s.wr with queue := s.wr.queue ++ [.endMarker] }, eng := { s.eng with markerPlaced := true } }
  else s

def State.takeEndMarkerPlace (s : State) : State := if s.endMarkerOfferDue then s.placeEndMarker else s

/-- The three reports have come, and the end summary can begin (R158 step 4, R159, R161): not while a link delivery is
still under way, because the summary is written when the session's other work has ended (R163), and a conversion request
of a link taken after the stop still gives its DROP record, or is counted in the lost total the summary carries (R116,
R121). That a delivery can be under way is the model's reading (assumption log 21). -/
def State.summaryDue (s : State) : Bool :=
  !s.eng.resetPending && s.eng.task == .none && s.port.engine.isNone && s.eng.converterIdle
    && s.eng.loaderQuiet && s.eng.pathComplete && s.links.isEmpty
    && ((s.eng.state == .draining && s.eng.markerPlaced) || s.windingDown)

/-- The summary write begins: the timebase stops, and the 128 bytes are taken (R154, R163, R164). -/
def State.beginSummary (s : State) : State :=
  let s := s.holdTimebase
  { s with eng := { s.eng with task := .summary 0 (summaryBytes s) } }

def State.takeSummary (s : State) : State := if s.summaryDue then s.beginSummary else s

/-! ## The writer's events -/

/-- A slot taking begins: the table is to be read from slot 0 (R130). -/
def State.takeSlotTaking (s : State) : State :=
  if s.slotTakingDue then { s with wr := { s.wr with task := .table [] } } else s

def State.takeCloseMarker (s : State) : State :=
  match s.closeMarkerDue with
  | some m => s.reachCloseMarker m
  | none => s

def State.takeEndMarker (s : State) : State := if s.endMarkerDue then s.reachEndMarker else s

def State.takeDrainLimitExpiry (s : State) : State := if s.drainLimitDue then s.takeDrainLimit else s

/-! ## Commands -/

/-- START_LINE_EDGE (R156): the line keeps the level; in a device reset nothing else happens. -/
def execStartLineEdge (level : Level) (s : State) : Host.Outcome State Fault Refusal :=
  act (s.startLine level) fun s => s.sampleStart level

/-- TIMEBASE_TICK (R154). -/
def execTimebaseTick (s : State) : Host.Outcome State Fault Refusal := act s State.takeTick

/-- TIMEBASE_END (R155, R160). -/
def execTimebaseEnd (s : State) : Host.Outcome State Fault Refusal := act s State.takeTimebaseEnd

/-- TICK_ARRIVAL (R54): the line keeps the level; in a device reset nothing else happens. -/
def execTickArrival (ch : ChanId) (level : Level) (s : State) : Host.Outcome State Fault Refusal :=
  act (s.inputLine ch level) fun s => s.takeArrival ch level

/-- SCAN_EVENT (R33). -/
def execScanEvent (s : State) : Host.Outcome State Fault Refusal := act s State.takeScan

/-- FIRE_LINK_DELIVERY (R101). -/
def execFireLinkDelivery (source target : ChanId) (s : State) : Host.Outcome State Fault Refusal :=
  act s fun s => s.takeFire source target

/-- CONVERT_LINK_REQUEST (R115). -/
def execConvertLinkRequest (source : ChanId) (s : State) : Host.Outcome State Fault Refusal :=
  act s fun s => s.takeLinkRequest source

/-- WARM_UP_END (R108). -/
def execWarmUpEnd (s : State) : Host.Outcome State Fault Refusal := act s fun s => s.takeReady .warming

/-- SETTLING_END (R111). -/
def execSettlingEnd (s : State) : Host.Outcome State Fault Refusal := act s fun s => s.takeReady .settling

/-- CONVERSION_END (R113, R120). -/
def execConversionEnd (s : State) : Host.Outcome State Fault Refusal := act s State.takeConversionEnd

/-- INITIAL_FETCH_COMPLETE (R40, R152). -/
def execInitialFetchComplete (s : State) : Host.Outcome State Fault Refusal := act s State.takeInitialFetchComplete

/-- SLOT_TAKING (R130). -/
def execSlotTaking (s : State) : Host.Outcome State Fault Refusal := act s State.takeSlotTaking

/-- CLOSE_MARKER_REACHED (R126). -/
def execCloseMarkerReached (s : State) : Host.Outcome State Fault Refusal := act s State.takeCloseMarker

/-- END_MARKER_REACHED (R140). -/
def execEndMarkerReached (s : State) : Host.Outcome State Fault Refusal := act s State.takeEndMarker

/-- DEADLINE_EXPIRY (R136). -/
def execDeadlineExpiry (s : State) : Host.Outcome State Fault Refusal := act s State.takeDeadlineExpiry

/-- DRAIN_LIMIT_EXPIRY (R134). -/
def execDrainLimitExpiry (s : State) : Host.Outcome State Fault Refusal := act s State.takeDrainLimitExpiry

/-- LOADER_QUIET (R48, R49, R158). -/
def execLoaderQuiet (s : State) : Host.Outcome State Fault Refusal := act s State.takeLoaderQuiet

/-- END_MARKER_PLACE (R158). -/
def execEndMarkerPlace (s : State) : Host.Outcome State Fault Refusal := act s State.takeEndMarkerPlace

/-- END_SUMMARY_WRITE (R164). -/
def execEndSummaryWrite (s : State) : Host.Outcome State Fault Refusal := act s State.takeSummary

/-- RECORD_OFFER (R125): a producer's record is offered to the result queue (assumption log 6). -/
def execRecordOffer (r : Rec) (s : State) : Host.Outcome State Fault Refusal := act s fun s => s.offer r

end Sys2Proof.Machine
end

