-- ==== Sys2Proof/Machine/Dispatch.lean ====
section
/-! DEFINITION. Machine/Dispatch.lean: one arm per command, each one call of its meaning. -/

namespace Sys2Proof.Machine

/-- The effect of a command on everything but the queue. -/
def exec (i : Instr) (s : State) : Host.Outcome State Fault Refusal :=
  match i with
  | .prepare => Sys2Proof.Machine.execPrepare s
  | .startCommand => Sys2Proof.Machine.execStartCommand s
  | .stopCommand => Sys2Proof.Machine.execStopCommand s
  | .abort => Sys2Proof.Machine.execAbort s
  | .nudge => Sys2Proof.Machine.execNudge s
  | .reset => Sys2Proof.Machine.execReset s
  | .unknownCommand code => Sys2Proof.Machine.execUnknownCommand code s
  | .baseWrite value => Sys2Proof.Machine.execBaseWrite value s
  | .alertWrite value => Sys2Proof.Machine.execAlertWrite value s
  | .alertEnableWrite value => Sys2Proof.Machine.execAlertEnableWrite value s
  | .timeLoRead => Sys2Proof.Machine.execTimeLoRead s
  | .ignoredRegisterWrite offset bytes value => Sys2Proof.Machine.execIgnoredRegisterWrite offset bytes value s
  | .deviceReset => Sys2Proof.Machine.execDeviceReset s
  | .engineReset => Sys2Proof.Machine.execEngineReset s
  | .quietIntervalEnd reading => Sys2Proof.Machine.execQuietIntervalEnd reading s
  | .startLineEdge level => Sys2Proof.Machine.execStartLineEdge level s
  | .timebaseTick => Sys2Proof.Machine.execTimebaseTick s
  | .timebaseEnd => Sys2Proof.Machine.execTimebaseEnd s
  | .tickArrival ch level => Sys2Proof.Machine.execTickArrival ch level s
  | .scanEvent => Sys2Proof.Machine.execScanEvent s
  | .expiry => Sys2Proof.Machine.execExpiry s
  | .laneHeadOffer lane => Sys2Proof.Machine.execLaneHeadOffer lane s
  | .set ch => Sys2Proof.Machine.execSet ch s
  | .start ch => Sys2Proof.Machine.execStart ch s
  | .stop ch => Sys2Proof.Machine.execStop ch s
  | .pause ch => Sys2Proof.Machine.execPause ch s
  | .resume ch => Sys2Proof.Machine.execResume ch s
  | .stage ch => Sys2Proof.Machine.execStage ch s
  | .fire ch => Sys2Proof.Machine.execFire ch s
  | .snapshot ch => Sys2Proof.Machine.execSnapshot ch s
  | .powerOn => Sys2Proof.Machine.execPowerOn s
  | .powerOff => Sys2Proof.Machine.execPowerOff s
  | .reference => Sys2Proof.Machine.execReference s
  | .convert => Sys2Proof.Machine.execConvert s
  | .note => Sys2Proof.Machine.execNote s
  | .closePage => Sys2Proof.Machine.execClosePage s
  | .endCue => Sys2Proof.Machine.execEndCue s
  | .fireLinkDelivery source target => Sys2Proof.Machine.execFireLinkDelivery source target s
  | .convertLinkRequest source => Sys2Proof.Machine.execConvertLinkRequest source s
  | .warmUpEnd => Sys2Proof.Machine.execWarmUpEnd s
  | .settlingEnd => Sys2Proof.Machine.execSettlingEnd s
  | .conversionEnd => Sys2Proof.Machine.execConversionEnd s
  | .requestPresent r => Sys2Proof.Machine.execRequestPresent r s
  | .grant reading => Sys2Proof.Machine.execGrant reading s
  | .busAccept => Sys2Proof.Machine.execBusAccept s
  | .response r issue okay data => Sys2Proof.Machine.execResponse r issue okay data s
  | .timeout r reading => Sys2Proof.Machine.execTimeout r reading s
  | .initialFetchComplete => Sys2Proof.Machine.execInitialFetchComplete s
  | .slotTaking => Sys2Proof.Machine.execSlotTaking s
  | .closeMarkerReached => Sys2Proof.Machine.execCloseMarkerReached s
  | .endMarkerReached => Sys2Proof.Machine.execEndMarkerReached s
  | .deadlineExpiry => Sys2Proof.Machine.execDeadlineExpiry s
  | .drainLimitExpiry => Sys2Proof.Machine.execDrainLimitExpiry s
  | .loaderQuiet => Sys2Proof.Machine.execLoaderQuiet s
  | .endMarkerPlace => Sys2Proof.Machine.execEndMarkerPlace s
  | .endSummaryWrite => Sys2Proof.Machine.execEndSummaryWrite s
  | .recordOffer r => Sys2Proof.Machine.execRecordOffer r s
  | .deviceResetEnd reading => Sys2Proof.Machine.execDeviceResetEnd reading s

end Sys2Proof.Machine
end

