-- ==== Sys2Proof/Safety.lean ====
section
/-! DEFINITION. Safety.lean: what every state of a run keeps to (the bounds of the queues, the order of the Calendar,
the resting channels, the counters' ranges, the request path, the writer's states, the running timebase, the link
deliveries under way), and the terms the statements use. -/

namespace Sys2Proof.Machine

/-- No queue holds more than its places: 32 result items (R124), 48 Calendar entries (R13), 8 conversion
requests (R112), 4 trail entries in each lane (R41). -/
def State.withinPlaces (s : State) : Prop :=
  s.wr.queue.length ≤ 32 ∧ s.cal.length ≤ 48 ∧ s.conv.queue.length ≤ 8 ∧
    ∀ i : LaneId, (s.loader.lanes[i]).trail.length ≤ 4

/-- The Calendar stands in Calendar order (R14). -/
def State.calendarInOrder (s : State) : Prop := s.cal.Pairwise fun a b => b.before a = false

/-- A channel that is UNSET or STOPPED, and so drives its rest level. -/
def Channel.resting (c : Channel) : Prop := c.mode = .unset ∨ c.mode = .stopped

/-- An UNSET or STOPPED channel drives its rest level, and outside RUNNING every channel is UNSET or STOPPED
(R79, Table 4-1). -/
def State.channelsRest (s : State) : Prop :=
  ∀ ch : ChanId, ((s.chans[ch]).resting → (s.chans[ch]).output = (s.chans[ch]).restLevel) ∧
    (s.eng.state ≠ .running → (s.chans[ch]).resting)

/-- The counter stands below the wrap limit; a ONE_SHOT channel, which has none, has an action mark other than 0,
staged marks included, and during a pulse it counts below it (R58, R59, R69). -/
def Channel.countsInRange (c : Channel) : Prop :=
  ∀ st, c.settings = some st →
    (∀ l, st.wrapLimit = some l → c.counter.toNat < l) ∧
    (st.shape = .oneShot → st.action ≠ 0 ∧ (∀ m, c.staged = some m → (st.withMarks m).action ≠ 0) ∧
      (c.mode = .pulsing ∨ (c.mode = .paused ∧ c.pausedFrom = some .pulsing) → c.counter.toNat < st.action.toNat))

/-- Every channel's counter is in its range. -/
def State.countersInRange (s : State) : Prop := ∀ ch : ChanId, (s.chans[ch]).countsInRange

/-- The request path is held by a requester whose transaction is outstanding (R171). -/
def State.pathHeld (s : State) : Prop := ∀ r : Requester, s.port.path = some r → (s.port.request r).isOutstanding

/-- The writer's access in progress, page and queue fit its state (Tables 6-2 and 6-3, R144). -/
def Writer.coherent (w : Writer) : Prop :=
  match w.state, w.task with
  | .opened, .none | .opened, .record _ | .opened, .faultRecord | .opened, .header _ | .opened, .closed _ =>
    w.page.isSome
  | .opened, _ => False
  | .idle, .none | .idle, .table _ | .idle, .reject _ _ | .idle, .fill _ => w.page = none
  | .idle, _ => False
  | .starved, .none | .starved, .table _ | .starved, .reject _ _ | .starved, .fill _ => w.page = none
  | .starved, _ => False
  | .done, .none => w.queue = []
  | .done, _ => False

def EngineTask.isSummary : EngineTask → Bool
  | .summary _ _ => true
  | .none => false
  | .readFirst => false
  | .readSecond _ => false
  | .discard => false

def EngineTask.isRead : EngineTask → Bool
  | .readFirst => true
  | .readSecond _ => true
  | .none => false
  | .summary _ _ => false
  | .discard => false

/-- The timebase runs in RUNNING and DRAINING only (Table 7-1, R154), and not while the end summary is
written (R158), which happens in DRAINING, ENDED and FAULTED only (R164); the control block is read in the read
phase of PREPARING only (R149, R152). The tick divider is 1 to 1024 (R150, R154). -/
def State.timebaseHeld (s : State) : Prop :=
  (1 ≤ s.tb.divider ∧ s.tb.divider ≤ 1024) ∧
    (s.tb.runs = true → s.eng.state = .running ∨ s.eng.state = .draining) ∧
    (s.eng.task.isSummary = true →
      s.tb.runs = false ∧ (s.eng.state = .draining ∨ s.eng.state = .ended ∨ s.eng.state = .faulted)) ∧
    (s.eng.task.isRead = true → s.eng.state = .preparing ∧ s.eng.checked = false)

/-- Link deliveries are under way only while a session runs, or has stopped in this tick with its end summary still to
begin (R103, R116); and in a drain no conversion request is, once the end marker is placed (R120). -/
def State.linksTaken (s : State) : Prop :=
  (s.links ≠ [] → (s.eng.state = .running ∨ s.eng.state = .draining ∨
      ((s.eng.state = .ended ∨ s.eng.state = .faulted) ∧ s.eng.windDown = false)) ∧ s.eng.task.isSummary = false) ∧
    (s.eng.state = .draining → s.eng.markerPlaced = true → ∀ d ∈ s.links, d.asksConversion = false)

/-! ## Terms the statements use -/

/-- No device reset is in force. -/
def State.free (s : State) : Prop := s.pins.resetHeld = false

/-- `e` is the Calendar's earliest entry, and its due tick is this tick of RUNNING (R17). -/
def State.dueNow (s : State) (e : Entry) (rest : List Entry) : Prop :=
  s.free ∧ s.eng.state = .running ∧ s.cal = e :: rest ∧ e.cue.due = s.now

/-- `t` is what `n` EXPIRY commands, one after another, leave of `s`. -/
def afterExpiries : Nat → State → State → Prop
  | 0, s, t => t = s
  | n + 1, s, t => ∃ u, exec .expiry s = .next u ∧ afterExpiries n u t

/-- Entry `e` is an END cue due now, on time or late and to be dispatched all the same (R12, R19). -/
def State.endsNow (s : State) (e : Entry) : Prop :=
  e.cue.action = .engine .endCue ∧
    (e.cue.due = s.now ∨ (e.cue.due.toNat < s.now.toNat ∧ e.cue.late = .runLate))

/-- Command `c` starts the session in `s`, where `r` is `s` with the engine RUNNING and the timebase running (R156). The
entries due are handled as by EXPIRY commands that follow at once, one for each place the Calendar holds, in Calendar
order; an END cue among them begins the drain (R21, R17). At the last start time they stay for EXPIRY (R155). -/
def State.startsBy (s : State) (c : Instr) (r : State) : Prop :=
  ∃ t, exec c s = .next t ∧
    ((∀ e ∈ s.cal, s.now.toNat < e.cue.due.toNat) → t = r) ∧
    (s.now.toNat = 2 ^ 48 - 1 → t = r) ∧
    (s.now.toNat ≠ 2 ^ 48 - 1 →
      afterExpiries s.cal.length r t ∧
      (∀ e rest, s.cal = e :: rest → e.cue.due.toNat ≤ s.now.toNat →
        (∀ x ∈ rest, s.now.toNat < x.cue.due.toNat) → exec .expiry r = .next t) ∧
      (s.calendarInOrder →
        (∀ e ∈ t.cal, s.now.toNat < e.cue.due.toNat) ∧
        ((∀ e ∈ s.cal, ¬ s.endsNow e) →
          t.eng = r.eng ∧ t.cal = s.cal.filter fun e => decide (s.now.toNat < e.cue.due.toNat)) ∧
        ((∃ e ∈ s.cal, s.endsNow e) → t.eng.state = .draining ∧ t.eng.endCause = .endCue ∧ t.cal = []))) ∧
    t.tb = r.tb ∧ t.params = s.params ∧ t.port = s.port ∧ t.pins = r.pins ∧ t.links = s.links

/-- The CUE_REPORT of an entry retired on time with an outcome (R5). -/
def State.reportOf (s : State) (e : Entry) (o : CueOutcome) : Rec :=
  .cueReport { lane := e.lane, seq := e.seq, code := e.cue.action.code, outcome := o, time := s.now, detail := 0,
               tag := e.cue.tag }

/-- From `s` to `t` the entry `e` left the Calendar and was retired with outcome `o`: counted by the Loader against
its lane and trail reference, and reported when `mustReport`. `w` is the writer with the records the verb produced,
and `alert` what ALERT holds after. Nothing else of State changes but, as the statement says, channels and
Converter. -/
def retiredTo (s t : State) (e : Entry) (rest : List Entry) (o : CueOutcome) (mustReport : Bool) (w : Writer)
    (alert : Byte) : Prop :=
  t.cal = rest ∧
  t.loader = { s.loader with lanes := s.loader.lanes.set e.lane.val ((s.lane e.lane).retire e.trailRef) e.lane.isLt } ∧
  t.wr = (if mustReport then w.offer s.now (s.reportOf e o) else w) ∧
  t.win = { s.win with alert := alert } ∧
  t.pending = s.pending ∧ t.eng = s.eng ∧ t.tb = s.tb ∧ t.params = s.params ∧ t.links = s.links ∧ t.port = s.port ∧
  t.pins = s.pins

/-- `e` was dispatched on time with a plain outcome: reported only when its report flag is 1, no alert (R5, R6). -/
def retiredPlain (s t : State) (e : Entry) (rest : List Entry) (o : CueOutcome) (w : Writer) : Prop :=
  retiredTo s t e rest o e.cue.report w s.win.alert

/-- `e` was dispatched on time and refused, or done in part: always reported, and REFUSE set (R5, R6). -/
def retiredRefused (s t : State) (e : Entry) (rest : List Entry) (o : CueOutcome) (w : Writer) : Prop :=
  retiredTo s t e rest o true w (s.win.alert ||| 0x08)

/-- The channels of `t` are those of `s` but for channel `ch`, which is `c`. -/
def onlyChannel (s t : State) (ch : ChanId) (c : Channel) : Prop :=
  t.conv = s.conv ∧ t.chans = s.chans.set ch.val c ch.isLt

/-- The input edge setting selects the change of the line from one sample to the next (Table 3-2). -/
def InputEdge.picks (i : InputEdge) (last new : Level) : Prop :=
  (last = .low ∧ new = .high ∧ (i = .rise ∨ i = .both)) ∨ (last = .high ∧ new = .low ∧ (i = .fall ∨ i = .both))

/-- The channel with its staged marks taken, in the first tick of a pulse (R55, R87, R88). -/
def Channel.pulseBegun (c : Channel) (now : Tick) (output : Level) : Channel :=
  { c.takeMarks with mode := .pulsing, counter := 0, phase := 0, restart := some now, output := output }

/-- The lateness of a cue handled now (R5): at most 65535. -/
def State.latenessOf (s : State) (due : Tick) : Half := BitVec.ofNat 16 (min 65535 (s.now.toNat - due.toNat))

/-- The CUE_REPORT of an entry handled late (R5, R19, R20). -/
def State.lateReport (s : State) (e : Entry) (o : CueOutcome) : Rec :=
  .cueReport { lane := e.lane, seq := e.seq, code := e.cue.action.code, outcome := o, time := s.now,
               detail := s.latenessOf e.cue.due, tag := e.cue.tag }

/-- Records offered one after another (R125). -/
def Writer.offered (w : Writer) (now : Tick) (rs : List Rec) : Writer := rs.foldl (fun w r => w.offer now r) w

/-- What the session stop of a drain cancels on lane `i`: its entries in the Calendar `cal`, and an accepted head
(R23, R48). -/
def State.cancelledOf (s : State) (cal : List Entry) (i : LaneId) : Nat :=
  (cal.filter fun e => e.lane == i).length + (if (s.lane i).acceptedHead.isSome then 1 else 0)

/-- The LANE_EVENT CANCELLED records of a session stop: one for each lane with a total, lane 0 first (R48, R49). -/
def State.cancelRecords (s : State) (cal : List Entry) : List Rec :=
  ((List.finRange 4).filter fun i => s.cancelledOf cal i != 0).map fun i =>
    .laneEvent i .cancelled (s.lane i).current (BitVec.ofNat 32 (s.cancelledOf cal i)) s.now

/-- The records the beginning of a drain produces: LANE_EVENT CANCELLED, then a DROP of cause SESSION_END for each
queued conversion request, oldest first (R120). That the LANE_EVENT records come first is the model's choice
(assumption log 5). -/
def State.drainRecords (s : State) (cal : List Entry) : List Rec :=
  s.cancelRecords cal ++ s.conv.queue.map fun r => .drop r.input r.source .sessionEnd r.tag s.now

/-- The records an abort or a wind-down produces: LANE_EVENT CANCELLED, then a DROP of cause FAULT for the conversion in
flight and each queued request (R49, R122), in the order of assumption log 5. -/
def State.stopRecords (s : State) (cal : List Entry) : List Rec :=
  s.cancelRecords cal ++ ((s.conv.inFlight.map Conversion.request).toList ++ s.conv.queue).map fun r =>
    .drop r.input r.source .fault r.tag s.now

/-- The lost total raised by `n` records: it stays at its largest value (R125). -/
def lostAfter (lost : Word) (n : Nat) : Nat := min (2 ^ 32 - 1) (lost.toNat + n)

/-- The writer after the beginning of a drain that offers these records: a STARVED one counts its scan events from 0
(R134). -/
def Writer.drained (w : Writer) (now : Tick) (rs : List Rec) : Writer :=
  { w.offered now rs with starveCount := if w.state = .starved then 0 else w.starveCount }

/-- Lane `i` after the retirement of each of its entries in `cal`, in order (R42). -/
def State.laneRetired (s : State) (cal : List Entry) (i : LaneId) : Lane :=
  (cal.filter fun e => e.lane == i).foldl (fun l e => l.retire e.trailRef) (s.lane i)

/-- The newest trail entry changed (R41). -/
def TrailEntry.atNewest (f : TrailEntry → TrailEntry) (trail : List TrailEntry) : List TrailEntry :=
  trail.dropLast ++ (trail.getLast?.map f).toList

/-- The lane begins the segment at `next` (R38). -/
def Lane.entered (l : Lane) (next : Word) : Lane :=
  { l with state := .active, current := next, fetchIndex := 0, knownFill := 0, pendingNext := none, reread := .absent,
           trail := l.trail ++ [{ address := next, fetched := 0, retired := 0, finish := none }] }

/-- The four slot entries of one slot table read (R129, Table 9-7): state at 0, address at 4, size at
8 of each 16 bytes. -/
def slotEntriesOf (d : BusData) : List SlotEntry :=
  [0, 16, 32, 48].map fun off =>
    { state := d.extractLsb' (8 * off) 8, address := d.extractLsb' (8 * (off + 4)) 32,
      size := d.extractLsb' (8 * (off + 8)) 32 }

/-- The 16 bytes of a slot entry the part writes (R129, Table 9-7). -/
def slotBytes (state reason : Byte) (records : Half) (address size seq : Word) : List Byte :=
  [state, reason] ++ le 2 records ++ le 4 address ++ le 4 size ++ le 4 seq

/-- The bytes from `address` on lie in the window (R169). -/
def Window.covers (w : Window) (address : Word) (length : Nat) : Prop :=
  w.base.toNat ≤ address.toNat ∧ address.toNat + length ≤ w.limit.toNat

/-- Bytes as one little-endian number (Conventions). -/
def bytesNat : List Byte → Nat
  | [] => 0
  | b :: rest => b.toNat + 256 * bytesNat rest

/-- The field of `size` bytes at offset `off` of a structure (section 9.3). -/
def fieldOf (bytes : List Byte) (off size : Nat) : Nat := bytesNat ((bytes.drop off).take size)

/-- Engine Control is in a state in which the writer fills pages: the initial fetch with no abort, ARMED, RUNNING and
DRAINING (R128). -/
def State.fillsPages (s : State) : Prop :=
  s.eng.state = .armed ∨ s.eng.state = .running ∨ s.eng.state = .draining ∨
    (s.eng.state = .preparing ∧ s.eng.checked = true ∧ s.eng.aborting = false)

/-- What a reread request leaves of one standing so: none becomes present; a present one whose read is issued, or whose
reread has begun, is kept, and another adds nothing (R34, R133). -/
def rereadAsked (begun : Prop) (before after : Reread) : Prop :=
  (before = .absent → after = .present) ∧ (before = .present → begun → after = .kept) ∧
    (before = .present → ¬ begun → after = .present) ∧ (before = .kept → after = .kept)

/-- Lane `i` has received a reread request and is `l` now: a WAITING lane's request alone changes, any other lane is as it
was (R33, R34). Its header read is issued once it is outstanding (assumption log 13). -/
def State.laneAsked (s : State) (i : LaneId) (l : Lane) : Prop :=
  let issued : Prop := s.port.loader.isOutstanding = true ∧
    ∃ a, s.loader.access = some a ∧ a.lane = i ∧ a.kind = .header
  ((s.lane i).state ≠ .waiting → l = s.lane i) ∧
    ((s.lane i).state = .waiting →
      l = { s.lane i with reread := l.reread } ∧ rereadAsked issued (s.lane i).reread l.reread)

/-- A STARVED writer has received a reread request and is `w` now (R133): the first one has the whole slot table read
again. A reread has not begun while its first read is not issued (assumption log 13). -/
def State.writerAsked (s : State) (w : Writer) : Prop :=
  let begun : Prop := ¬ (s.wr.task = .table [] ∧ s.port.writer.isOutstanding = false)
  w = { s.wr with reread := w.reread, task := if s.wr.reread = .absent then .table [] else s.wr.task } ∧
    rereadAsked begun s.wr.reread w.reread

/-- A page with a record of this length written into it now (R135). -/
def Page.after (p : Page) (length : Nat) (now : Tick) : Page :=
  { p with nextFree := p.nextFree + length, records := p.records + 1, firstTick := some (p.firstTick.getD now) }

/-- Every invariant of this file. -/
def State.safe (s : State) : Prop :=
  s.withinPlaces ∧ s.calendarInOrder ∧ s.channelsRest ∧ s.countersInRange ∧ s.pathHeld ∧ s.wr.coherent ∧ s.timebaseHeld ∧
    s.linksTaken

/-- The Calendar, the lanes, the channels, the Converter, the Result Writer, the timebase and the port hold their
device reset values (R25, R50, R76, R123, R145, R154, R177). -/
def State.blocksReset (s : State) : Prop :=
  s.cal = [] ∧ s.loader.nextLane = 0 ∧
  (∀ i : LaneId, (s.lane i).state = .off ∧ (s.lane i).fetchIndex = 0 ∧ (s.lane i).knownFill = 0 ∧
    (s.lane i).head = none ∧ (s.lane i).lastDue = 0 ∧ (s.lane i).seqCounter = 0 ∧ (s.lane i).cuesRetired = 0 ∧
    (s.lane i).trail = [] ∧ (s.lane i).pendingNext = none ∧ (s.lane i).reread = .absent) ∧
  (∀ ch : ChanId, (s.chan ch).mode = .unset ∧ (s.chan ch).settings = none ∧ (s.chan ch).staged = none ∧
    (s.chan ch).restLevel = .low ∧ (s.chan ch).output = .low ∧ (s.chan ch).counter = 0 ∧ (s.chan ch).wrapCount = 0 ∧
    (s.chan ch).phase = 0 ∧ (s.chan ch).tag = 0 ∧ (s.chan ch).restart = none ∧ (s.chan ch).pausedFrom = none ∧
    (s.chan ch).lastSample = .low ∧ s.pins.tout[ch] = .low) ∧
  (s.conv.power = .off ∧ s.conv.current = .supply ∧ s.conv.pendingRef = none ∧ s.conv.queue = [] ∧
    s.conv.inFlight = none ∧ s.conv.endTick = none ∧ s.conv.closing = none) ∧
  (s.wr.state = .idle ∧ s.wr.queue = [] ∧ s.wr.page = none ∧ s.wr.lost = 0 ∧ s.wr.closeSeq = 0 ∧
    s.wr.reread = .absent ∧ s.wr.starveCount = 0 ∧ s.wr.faultRecord = none ∧ s.wr.pathFailed = false) ∧
  (s.tb.count = 0 ∧ s.tb.runs = false ∧ s.tb.divider = 1) ∧
  (s.port.window = none ∧ s.port.path = none ∧ s.port.lastServed = .writer ∧
    ∀ r : Requester, s.port.request r = .none ∧ s.port.issue r = 0)

/-- Table 7-3: the engine states and conditions in which a command of CONTROL is accepted (R147). -/
def State.accepts (s : State) : Instr → Prop
  | .prepare => s.eng.resetPending = false ∧
      (s.eng.state = .off ∨ ((s.eng.state = .ended ∨ s.eng.state = .faulted) ∧ s.eng.windDown = true))
  | .startCommand => s.eng.resetPending = false ∧ s.eng.state = .armed
  | .stopCommand => s.eng.resetPending = false ∧ (s.eng.state = .armed ∨ s.eng.state = .running)
  | .abort => s.eng.resetPending = false ∧
      ((s.eng.state = .preparing ∧ s.eng.aborting = false) ∨ s.eng.state = .armed ∨ s.eng.state = .running ∨
        s.eng.state = .draining)
  | .nudge => True
  | .reset => True
  | _ => False

/-- The table's row for the cue an entry holds. -/
def rowOf : Action → Instr
  | .channel ch (.set _) => .set ch
  | .channel ch .start => .start ch
  | .channel ch .stop => .stop ch
  | .channel ch .pause => .pause ch
  | .channel ch .resume => .resume ch
  | .channel ch (.stage _) => .stage ch
  | .channel ch .fire => .fire ch
  | .channel ch .snapshot => .snapshot ch
  | .converter .powerOn => .powerOn
  | .converter .powerOff => .powerOff
  | .converter (.reference _) => .reference
  | .converter (.convert _) => .convert
  | .engine (.note _) => .note
  | .engine .closePage => .closePage
  | .engine .endCue => .endCue

end Sys2Proof.Machine
end

