-- ==== Sys2Proof/Certificates/Slice0/Obligations.lean ====
section
/-! DEFINITION. Certificates/Slice0/Obligations.lean: the statements, one Prop each. `s.free` is: no device reset in
force. A conclusion `exec c s = .next { s with … }` is also the frame: whatever it does not name is as in `s`. -/

section
open Sys2Proof Sys2Proof.Machine

/-! ## The queue of commands -/

/-- A step takes the command at the front of the queue and runs it with the queue's rest. With nothing in the queue the
block idles (the model's choice, assumption log 2). -/
def Obligations.StepRunsFrontCommand : Prop :=
  (∀ (s : State) (c : Instr) (rest : List Instr), s.pending = c :: rest → step s = exec c { s with pending := rest }) ∧
  (∀ s : State, s.pending = [] → step s = .next s)

/-- No command stops the part, and none touches the queue. That a command whose conditions do not hold answers a next
state, with nothing changed, is the model's choice (assumption log 1), and so is the queue (log 2). -/
def Obligations.EveryCommandAnswersNext : Prop :=
  ∀ (c : Instr) (s : State), ∃ t, exec c s = .next t ∧ t.pending = s.pending

/-! ## Resets -/

/-- The state after reset holds what the spec gives for a device reset, and keeps every invariant. That it is the state
where a device reset has just ended is the model's reading (assumption log 9). -/
def Obligations.ResetStateIsAsStated : Prop :=
  State.reset.blocksReset ∧ State.reset.safe ∧ State.reset.stateWord = 0 ∧ State.reset.eng.state = .off ∧
    State.reset.eng.session = 0 ∧ State.reset.eng.resetPending = false ∧ State.reset.eng.lastStart = .low ∧
    State.reset.eng.faultAddr = 0 ∧ State.reset.win.base = 0 ∧ State.reset.win.alert = 0 ∧ State.reset.win.enable = 0 ∧
    State.reset.win.timeHi = 0 ∧ State.reset.int = false ∧ State.reset.pending = []

/-- DEVICE_RESET: every block takes its reset values at once, whatever is outstanding; the input pins stay. While the
device reset is in force only the input lines change, until it ends (R167). The input pins and the hold are the model's
reading (logs 9 and 11). -/
def Obligations.DeviceResetTakesEffect : Prop :=
  (∀ s : State, ∃ t, exec .deviceReset s = .next t ∧ t.blocksReset ∧ t.stateWord = 0 ∧ t.eng.state = .off ∧
     t.eng.session = 0 ∧ t.eng.result = .none ∧ t.eng.prepError = .none ∧ t.eng.endCause = .none ∧
     t.eng.faultCode = none ∧ t.eng.faultAddr = 0 ∧ t.eng.secondary = false ∧ t.eng.windDown = false ∧
     t.eng.resetPending = false ∧ t.eng.lastStart = .low ∧ t.win.base = 0 ∧ t.win.alert = 0 ∧ t.win.enable = 0 ∧
     t.win.timeHi = 0 ∧ t.int = false ∧ t.pins.tin = s.pins.tin ∧ t.pins.start = s.pins.start ∧
     t.pins.resetHeld = true) ∧
  (∀ (c : Instr) (s : State), s.pins.resetHeld = true → c ≠ .deviceReset → (∀ n, c ≠ .deviceResetEnd n) →
     ∃ t, exec c s = .next t ∧ t = { s with pins := { s.pins with tin := t.pins.tin, start := t.pins.start } })

/-- DEVICE_RESET_END begins the quiet interval; QUIET_INTERVAL_END ends it 40 microseconds (4000 periods of 10 ns)
later, and not before; until then a response is discarded and nothing is granted (R177). Readings of the reference clock
never go back (the model's choice, log 8). -/
def Obligations.QuietInterval : Prop :=
  (∀ (s : State) (n : Nat), s.pins.resetHeld = true →
    exec (.deviceResetEnd n) s =
      .next { s with port := { s.port with quiet := some (max s.pins.refClock n) },
                     pins := { s.pins with resetHeld := false, refClock := max s.pins.refClock n } }) ∧
  (∀ (s : State) (since n : Nat), s.free → s.port.quiet = some since → since + 4000 ≤ max s.pins.refClock n →
    exec (.quietIntervalEnd n) s =
      .next { s with port := { s.port with quiet := none }, pins := { s.pins with refClock := max s.pins.refClock n } }) ∧
  (∀ (s : State) (since n : Nat), s.free → s.port.quiet = some since → max s.pins.refClock n < since + 4000 →
    exec (.quietIntervalEnd n) s = .next s) ∧
  (∀ (s : State) (since n : Nat) (r : Requester) (k : Byte) (ok : Bool) (d : BusData), s.port.quiet = some since →
    exec (.response r k ok d) s = .next s ∧ exec (.grant n) s = .next s)

/-! ## The register window -/

/-- ALERT_WRITE clears each bit written as 1 and leaves each bit written as 0; ALERT_ENABLE_WRITE sets the eight
enables; nothing else changes (R180). INT is asserted while some bit is 1 in both ALERT and ALERT_ENABLE (R180). -/
def Obligations.AlertRegistersAndInt : Prop :=
  (∀ (s : State) (v : Word), s.free →
     (∃ t, exec (.alertWrite v) s = .next t ∧
       (∀ k, k < 8 → t.win.alert.getLsbD k = (s.win.alert.getLsbD k && !v.getLsbD k)) ∧
       t = { s with win := { s.win with alert := t.win.alert } }) ∧
     (∃ t, exec (.alertEnableWrite v) s = .next t ∧
       (∀ k, k < 8 → t.win.enable.getLsbD k = v.getLsbD k) ∧
       t = { s with win := { s.win with enable := t.win.enable } })) ∧
  (∀ s : State, s.int = true ↔ ∃ k, k < 8 ∧ s.win.alert.getLsbD k = true ∧ s.win.enable.getLsbD k = true)

/-- No command but ALERT_WRITE and the resets clears an alert bit. A tick takes an engine reset that is due, so it
counts among the resets while one is pending. What a tick takes is the model's choice (log 3). -/
def Obligations.AlertBitsStay : Prop :=
  ∀ (c : Instr) (s t : State), exec c s = .next t → (∀ v, c ≠ .alertWrite v) → c ≠ .deviceReset → c ≠ .engineReset →
    (c = .timebaseTick → s.eng.resetPending = false) →
    ∀ k, s.win.alert.getLsbD k = true → t.win.alert.getLsbD k = true

/-- BASE_WRITE: accepted in OFF, and in ENDED or FAULTED with wind-down complete set, with no engine reset pending;
else REFUSED with BASE unchanged (R178). No other command but a device reset changes BASE. IGNORED_REGISTER_WRITE
changes nothing (R178); where it names a whole word at a register that can be written, which is no ignored write, that
is the model's choice (assumption log 1), and where its four bytes lie in two registers too (log 38). Which command a
write of the window is (R178, Table 9-1): a whole word at BASE, CONTROL, ALERT and ALERT_ENABLE the command of that
register, any other write an ignored one. -/
def Obligations.BaseAndIgnoredWrites : Prop :=
  ((∀ (s : State) (v : Word), s.free → s.accepts .prepare →
     exec (.baseWrite v) s = .next { s with win := { s.win with base := v } }) ∧
   (∀ (s : State) (v : Word), s.free → ¬ s.accepts .prepare →
     exec (.baseWrite v) s = .next { s with eng := { s.eng with result := .refused } }) ∧
   (∀ (c : Instr) (s t : State), exec c s = .next t → (∀ v, c ≠ .baseWrite v) → c ≠ .deviceReset →
     t.win.base = s.win.base)) ∧
  (∀ (s : State) (offset : BitVec 5) (bytes : Fin 5) (v : Word), exec (.ignoredRegisterWrite offset bytes v) s = .next s) ∧
  (∀ v : Word, registerWrite 0x00 4 v = .baseWrite v ∧ registerWrite 0x04 4 v = controlCommand v ∧
    registerWrite 0x0C 4 v = .alertWrite v ∧ registerWrite 0x10 4 v = .alertEnableWrite v) ∧
  (∀ (offset : BitVec 5) (bytes : Fin 5) (v : Word),
    bytes ≠ 4 ∨ (offset ≠ 0x00 ∧ offset ≠ 0x04 ∧ offset ≠ 0x0C ∧ offset ≠ 0x10) →
    registerWrite offset bytes v = .ignoredRegisterWrite offset bytes v)

/-- What a read of a register returns (R178, R179, Tables 9-1 to 9-3): STATE presents each item of Engine Control in
its field, and bit 7 the writer's STARVED; BASE, ALERT and ALERT_ENABLE return what they hold, CONTROL and offset 1CH
0, TIME_LO bits 31 to 0 of the timebase, TIME_HI the latch; a read of fewer bytes returns the addressed bytes of the
word; a read of TIME_LO, of any width, is a TIME_LO_READ, and no other read has a row (the model's choice, log 25).
TIME_LO_READ returns bits 31 to 0 of the timebase and copies bits 47 to 32 into the TIME_HI latch, which a read of
TIME_HI returns in bits 15 to 0; nothing else changes. The latch is 0 after a reset, and no other command changes it
(R181); a tick takes an engine reset that is due. What a tick takes is the model's choice (log 3). -/
def Obligations.TimeLoReadLatches : Prop :=
  (∀ s : State, s.free → ∃ t, exec .timeLoRead s = .next t ∧
    t.win.busRead.toNat = s.tb.count.toNat % 2 ^ 32 ∧ t.win.timeHi.toNat = s.tb.count.toNat / 2 ^ 32 ∧
    t = { s with win := { s.win with busRead := t.win.busRead, timeHi := t.win.timeHi } }) ∧
  (∀ s : State, (s.readRegister 0x18 4).toNat = s.win.timeHi.toNat) ∧
  (∀ s t : State, exec .deviceReset s = .next t → t.win.timeHi = 0) ∧
  (∀ s t : State, exec .engineReset s = .next t → t = s ∨ t.win.timeHi = 0) ∧
  (∀ (c : Instr) (s t : State), exec c s = .next t → c ≠ .timeLoRead → c ≠ .deviceReset →
    c ≠ .engineReset → (c = .timebaseTick → s.eng.resetPending = false) → t.win.timeHi = s.win.timeHi) ∧
  (∀ s : State, let word : Word := s.readRegister 0x08 4
    (word.extractLsb' 0 3).toNat = (match s.eng.state with
      | .off => 0 | .preparing => 1 | .armed => 2 | .running => 3 | .draining => 4 | .ended => 5 | .faulted => 6) ∧
    word.getLsbD 3 = s.eng.windDown ∧
    (word.extractLsb' 4 2).toNat = (match s.eng.result with
      | .none => 0 | .accepted => 1 | .refused => 2 | .unknown => 3) ∧
    word.getLsbD 6 = s.eng.secondary ∧ (word.getLsbD 7 = true ↔ s.wr.state = .starved) ∧
    (word.extractLsb' 8 4).toNat = (match s.eng.prepError with
      | .none => 0 | .badFormat => 1 | .badWindow => 2 | .badDivider => 3 | .badHorizon => 4 | .badScan => 5
      | .badStartSource => 6 | .badLane => 7 | .busError => 8 | .aborted => 9) ∧
    (word.extractLsb' 12 3).toNat = (match s.eng.endCause with
      | .none => 0 | .stopCommand => 1 | .endCue => 2 | .notStarted => 3 | .drainLoss => 4 | .aborted => 5) ∧
    (word.extractLsb' 16 2).toNat = (match s.eng.faultCode with
      | none => 0 | some .resultPathError => 1 | some .timebaseEnd => 2) ∧
    word.getLsbD 15 = false ∧ word.extractLsb' 18 14 = 0) ∧
  (∀ s : State, s.readRegister 0x00 4 = s.win.base ∧ s.readRegister 0x04 4 = 0 ∧
    (s.readRegister 0x0C 4).toNat = s.win.alert.toNat ∧ (s.readRegister 0x10 4).toNat = s.win.enable.toNat ∧
    (s.readRegister 0x14 4).toNat = s.tb.count.toNat % 2 ^ 32 ∧ s.readRegister 0x1C 4 = 0) ∧
  (∀ (s : State) (k first bytes : Nat), k < 8 → 0 < bytes → first + bytes ≤ 4 →
    (s.readRegister (BitVec.ofNat 5 (4 * k + first)) bytes).toNat =
      (s.readRegister (BitVec.ofNat 5 (4 * k)) 4).toNat / 2 ^ (8 * first) % 2 ^ (8 * bytes)) ∧
  (∀ offset : BitVec 5, (0x14 ≤ offset.toNat ∧ offset.toNat ≤ 0x17 → registerRead offset = some .timeLoRead) ∧
    (offset.toNat < 0x14 ∨ 0x17 < offset.toNat → registerRead offset = none))

/-! ## Commands of CONTROL -/

/-- Table 7-3: a command that the state allows is ACCEPTED, any other is REFUSED and changes nothing else; a code that
Chapter 9 does not assign (0, or above 6) is UNKNOWN and changes nothing else. While an engine reset is pending a
second RESET and a NUDGE have no further effect. The command result keeps its value until the next command, a write to
BASE or a reset (R147); a tick takes an engine reset that is due. What a tick takes is the model's choice (log 3). The
codes of CONTROL (section 9.1): PREPARE 1, START 2, STOP 3, ABORT 4, NUDGE 5, RESET 6, as the whole value written. -/
def Obligations.CommandAcceptance : Prop :=
  (∀ (s : State) (c : Instr), s.free →
    c ∈ [Instr.prepare, .startCommand, .stopCommand, .abort, .nudge, .reset] →
    (s.accepts c → ∃ t, exec c s = .next t ∧ t.eng.result = .accepted) ∧
    (¬ s.accepts c → exec c s = .next { s with eng := { s.eng with result := .refused } })) ∧
  (∀ (s : State) (code : Word), s.free → (code = 0 ∨ 6 < code.toNat) →
    exec (.unknownCommand code) s = .next { s with eng := { s.eng with result := .unknown } }) ∧
  (∀ (s : State) (c : Instr), s.free → s.eng.resetPending = true → c = .nudge ∨ c = .reset →
    exec c s = .next { s with eng := { s.eng with result := .accepted } }) ∧
  (∀ (c : Instr) (s t : State), exec c s = .next t →
    c ∉ [Instr.prepare, .startCommand, .stopCommand, .abort, .nudge, .reset, .deviceReset, .engineReset] →
    (∀ v, c ≠ .unknownCommand v) → (∀ v, c ≠ .baseWrite v) → (c = .timebaseTick → s.eng.resetPending = false) →
    t.eng.result = s.eng.result) ∧
  (controlCommand 1 = .prepare ∧ controlCommand 2 = .startCommand ∧ controlCommand 3 = .stopCommand ∧
    controlCommand 4 = .abort ∧ controlCommand 5 = .nudge ∧ controlCommand 6 = .reset ∧
    ∀ code : Word, code = 0 ∨ 6 < code.toNat → controlCommand code = .unknownCommand code)

/-- The session number: raised by 1 when PREPARE is accepted, from 65535 to 1; 0 after a device reset; unchanged by
every other command, an engine reset among them. It stands in the page header and in the end summary (R148). -/
def Obligations.SessionNumber : Prop :=
  (∀ (s : State) (p : Page) (c : Closing), s.wr.page = some p → s.wr.task = .header c →
    ∃ rq, s.writerWants = some (rq, .header c) ∧ rq.addr = p.address ∧ rq.data.take 2 = le 2 s.eng.session) ∧
  (∀ s : State, ((summaryBytes s).drop 2).take 2 = le 2 s.eng.session) ∧
  ∀ (c : Instr) (s t : State), exec c s = .next t → s.free →
    (c = .deviceReset → t.eng.session = 0) ∧
    (c = .prepare ∧ s.accepts .prepare → s.eng.session.toNat = 65535 → t.eng.session = 1) ∧
    (c = .prepare ∧ s.accepts .prepare → s.eng.session.toNat ≠ 65535 →
      t.eng.session.toNat = s.eng.session.toNat + 1) ∧
    (c ≠ .deviceReset → ¬ (c = .prepare ∧ s.accepts .prepare) → t.eng.session = s.eng.session)

/-- An accepted PREPARE (R149): the items of the last attempt are cleared, the control block address is taken from BASE,
no window is in force, and the first read of the control block is next; with a misaligned address it fails with
BAD_WINDOW and PREP at once, and there is no read (R151). That the Converter keeps an earlier session's closing cause
until the checks have passed is the model's reading (log 40). -/
def Obligations.PrepareBegins : Prop :=
  ∀ s : State, s.free → s.accepts .prepare → ∃ t, exec .prepare s = .next t ∧
    t.eng.cba = s.win.base ∧ t.eng.endCause = .none ∧ t.eng.faultCode = none ∧ t.eng.faultAddr = 0 ∧
    t.eng.secondary = false ∧ t.eng.windDown = false ∧ t.eng.result = .accepted ∧ t.eng.resetPending = false ∧
    t.eng.lastStart = s.eng.lastStart ∧
    t.port = { s.port with window := none, lastServed := .writer } ∧
    (s.win.base.toNat % 512 = 0 →
      t.eng.state = .preparing ∧ t.eng.prepError = .none ∧ t.win = s.win ∧
      t.engineWants = some { addr := s.win.base, len := 64, write := false, data := [] }) ∧
    (s.win.base.toNat % 512 ≠ 0 →
      t.eng.state = .off ∧ t.eng.prepError = .badWindow ∧
      t.win = { s.win with alert := s.win.alert ||| 0x80 } ∧ t.engineWants = none) ∧
    t = { s with eng := t.eng, port := t.port, win := t.win }

/-- START_COMMAND in ARMED (R156, R21): the engine is RUNNING, the result ACCEPTED, and the timebase runs from the start
time. The entries due at or before the start time are then handled at once, in Calendar order, each just as EXPIRY
handles it in that running state (ExpiryAndRetirement, LateCues and the statements of the verbs say how: dispatched, or
skipped when late, retired, reported, with its alerts); in a Calendar that stands in its order none due is left, the
engine stays RUNNING and the entries not due stay, unless an END cue is among those dispatched, which begins the drain
and empties the Calendar. With one entry due the START is just EXPIRY of the running state; with none nothing else
happens. At the start time 2^48 - 1, where TIMEBASE_END falls on the same tick and may come first (R155), the entries
stay for EXPIRY. START_LINE_EDGE (R156): a sample of the START line becomes the last START sample while the session is
alive, in other states only the line's level is kept; in ARMED the edge the start source selects starts the session,
with the same effect on the entries due, but not while an engine reset is pending. That the start handles the due
entries within its step, that each START_LINE_EDGE of a tick is a sample of its own, and that no edge starts a session
while a reset is pending, are the model's (logs 18, 44 and 19). -/
def Obligations.SessionStarts : Prop :=
  (∀ s : State, s.free → s.accepts .startCommand →
     s.startsBy .startCommand
       { s with eng := { s.eng with state := .running, result := .accepted }, tb := { s.tb with runs := true } }) ∧
  (∀ (s : State) (level : Level), s.free →
     let alive : Prop := s.eng.state = .armed ∨ s.eng.state = .running ∨ s.eng.state = .draining ∨
       (s.eng.state = .preparing ∧ s.eng.checked = true)
     let selected : Prop := (s.params.startSource = .lineRise ∧ s.eng.lastStart = .low ∧ level = .high) ∨
       (s.params.startSource = .lineFall ∧ s.eng.lastStart = .high ∧ level = .low)
     (s.eng.state = .armed → selected → s.eng.resetPending = false →
       s.startsBy (.startLineEdge level)
         { s with eng := { s.eng with state := .running, lastStart := level }, tb := { s.tb with runs := true },
                  pins := { s.pins with start := level } }) ∧
     (alive → (s.eng.state ≠ .armed ∨ ¬ selected ∨ s.eng.resetPending = true) →
       exec (.startLineEdge level) s =
         .next { s with eng := { s.eng with lastStart := level }, pins := { s.pins with start := level } }) ∧
     (¬ alive → exec (.startLineEdge level) s = .next { s with pins := { s.pins with start := level } }))

/-- STOP_COMMAND in RUNNING or ARMED begins a drain (R157): the Calendar is cancelled, no lane is left to read, the
channels are stopped, and the Converter's queue is dropped while a conversion in flight goes on. Each cancelled cue
counts as retired for its lane; LANE_EVENT CANCELLED records, lane 0 first (R48, step 3), and DROP records of cause
SESSION_END, oldest first (R120), are offered, the former before the latter (the model's choice, log 5); a STARVED
writer's starve count begins at 0 (R134). What a channel becomes when a session stop reaches it (R75): a started channel
is STOPPED at its rest level, and staged marks go; an UNSET one is as it was. -/
def Obligations.StopCommandDrains : Prop :=
  (∀ s : State, s.free → s.accepts .stopCommand → ∃ t, exec .stopCommand s = .next t ∧
     t.eng = { s.eng with state := .draining, result := .accepted,
                          endCause := if s.eng.state = .armed then .notStarted else .stopCommand,
                          loaderQuiet := false, pathComplete := false, markerPlaced := false,
                          converterIdle := s.conv.inFlight.isNone } ∧
     t.cal = [] ∧
     (∀ i : LaneId, (t.lane i).state ≠ .active ∧ (t.lane i).state ≠ .waiting ∧ (t.lane i).state ≠ .blocked ∧
       (t.lane i).acceptedHead = none) ∧
     (∀ i : LaneId, t.lane i = (s.laneRetired s.cal i).stopped.cancelHead ∧
       ((s.lane i).head = none ∨ (s.lane i).acceptedHead.isSome →
         (t.lane i).cuesRetired = (s.lane i).cuesRetired + BitVec.ofNat 32 (s.cancelledOf s.cal i))) ∧
     t.wr = s.wr.drained s.now (s.drainRecords s.cal) ∧
     (∀ ch : ChanId, t.chan ch = (s.chan ch).sessionStop) ∧
     t.conv.queue = [] ∧ t.conv.closing = some .sessionEnd ∧ t.conv.inFlight = s.conv.inFlight ∧
     (s.conv.inFlight = none → t.conv.power = .off) ∧
     t.tb = s.tb ∧ t.params = s.params ∧ t.links = s.links ∧ t.port = s.port ∧ t.win = s.win ∧ t.pins = s.pins) ∧
  (∀ c : Channel,
     (c.mode = .unset → c.sessionStop = c) ∧
     (c.mode = .stopped → c.sessionStop = { c with staged := none }) ∧
     (c.mode ≠ .unset → c.mode ≠ .stopped →
       c.sessionStop = { c with mode := .stopped, output := c.restLevel, staged := none, pausedFrom := none }))

/-- ABORT in ARMED, RUNNING or DRAINING (R159): ENDED with cause ABORTED, the timebase held, the Calendar empty, the
channels stopped, the Converter OFF and empty, the result queue discarded, and the Loader's waiting request withdrawn.
A summary write of a drain that is overtaken completes and its answer is discarded. ABORT in PREPARING (R153): with no
transaction of the part outstanding the engine is OFF at once, else PREPARING until they are answered, with prepare
error ABORTED and PREP; in the read phase the blocks are as they were, in the initial fetch the Calendar is empty, the
lanes are OFF once the Loader has its answer, and the waiting requests of the Loader and the writer are withdrawn. The
writer at an ABORT of a session (R141): what it held and what the abort produces is counted lost, and a waiting request
of no close withdrawn; with no access outstanding an open page that holds a record is closed with cause ABORTED, and
without one the writer is DONE and the result path complete; an outstanding access is answered first, a close in
progress goes on, and the CLOSED write's answer makes the writer DONE; a failure makes the abort a fault (R159). That
the lanes keep their states in the read phase, that a control block read still waiting goes on and its answer is
discarded, when the lost total of the close is read, that a record under write is counted lost though its answer also
writes it, that the writer takes the abort before the abort's own records, and that a page whose deadline has expired
is closed with cause ABORTED all the same are the model's readings (logs 33, 27, 14, 26, 42 and 46). -/
def Obligations.AbortTakesEffect : Prop :=
  (∀ s : State, s.free → s.accepts .abort → s.eng.state ≠ .preparing → ∃ t, exec .abort s = .next t ∧
     t.eng.state = .ended ∧ t.eng.windDown = false ∧ t.eng.endCause = .aborted ∧ t.eng.result = .accepted ∧
     t.eng.converterIdle = true ∧ t.eng.session = s.eng.session ∧ t.tb = { s.tb with runs := false } ∧ t.cal = [] ∧
     (∀ i : LaneId, (t.lane i).state ≠ .active ∧ (t.lane i).state ≠ .waiting ∧ (t.lane i).state ≠ .blocked ∧
       (t.lane i).acceptedHead = none) ∧
     (∀ ch : ChanId, t.chan ch = (s.chan ch).sessionStop) ∧
     t.conv.power = .off ∧ t.conv.queue = [] ∧ t.conv.inFlight = none ∧ t.conv.closing = some .fault ∧
     (s.wr.state ≠ .done → t.wr.queue = []) ∧
     (s.wr.state = .done → t.wr = s.wr.offered s.now (s.stopRecords s.cal) ∧ t.eng.pathComplete = true) ∧
     (s.wr.state ≠ .done → s.wr.faultRecord = none →
       t.wr.lost.toNat = lostAfter s.wr.lost (recordCount s.wr.queue + (s.stopRecords s.cal).length)) ∧
     (s.wr.task.closing = false → s.port.writer.isOutstanding = false →
       (∀ p, s.wr.state = .opened → s.wr.page = some p → 0 < p.records →
         t.wr.state = .opened ∧ t.wr.page = some p ∧ t.wr.closeSeq = s.wr.closeSeq + 1 ∧
         t.wr.task = .header { cause := .aborted, seq := s.wr.closeSeq + 1, time := s.now, lost := t.wr.lost,
                               marker := none }) ∧
       (∀ p, s.wr.state = .opened → s.wr.page = some p → p.records = 0 →
         t.wr.state = .done ∧ t.wr.page = some p ∧ t.eng.pathComplete = true) ∧
       (s.wr.state = .idle ∨ s.wr.state = .starved → t.wr.state = .done ∧ t.eng.pathComplete = true)) ∧
     (s.wr.state ≠ .done → s.port.writer.isOutstanding = true →
       t.wr.state = s.wr.state ∧ t.wr.task = s.wr.task ∧ t.wr.page = s.wr.page ∧ t.wr.aborting = true ∧
       t.port.writer = s.port.writer) ∧
     (s.wr.state ≠ .done → s.wr.task.closing = true →
       t.wr.state = s.wr.state ∧ t.wr.task = s.wr.task ∧ t.wr.page = s.wr.page ∧ t.wr.closeSeq = s.wr.closeSeq ∧
       t.wr.aborting = true ∧ t.port.writer = s.port.writer) ∧
     (s.wr.state ≠ .done → s.wr.task.closing = false → t.port.writer = s.port.writer.withdrawn) ∧
     (∀ w bytes, s.eng.task = .summary w bytes → (s.port.engine = .none → t.eng.task = .none) ∧
       (s.port.engine ≠ .none → t.eng.task = .discard)) ∧
     t.port.loader = s.port.loader.withdrawn ∧ t.port.engine = s.port.engine ∧
     t.params = s.params ∧ t.links = s.links ∧ t.win = s.win ∧ t.pins = s.pins) ∧
  (∀ (s : State) (rq : Request) (k : Byte) (g : Nat) (ok : Bool) (d : BusData), s.free → s.port.quiet = none →
     s.eng.resetPending = false → (s.eng.state = .ended ∨ s.eng.state = .faulted) → s.eng.task = .discard →
     s.port.engine = .outstanding rq k g →
     ∃ t, exec (.response .engine k ok d) s = .next t ∧ t.eng = { s.eng with task := .none } ∧ t.win = s.win ∧
       t.wr = s.wr) ∧
  (∀ s : State, s.free → s.accepts .abort → s.eng.state = .preparing →
     (s.eng.checked = false → s.port.engine.isOutstanding = true →
       exec .abort s = .next { s with eng := { s.eng with result := .accepted, aborting := true } }) ∧
     (s.eng.checked = true → s.port.loader.isOutstanding = true ∨ s.port.writer.isOutstanding = true →
       ∃ t, exec .abort s = .next t ∧ (s.port.loader.isOutstanding = true → t.loader = s.loader) ∧
         (s.port.loader.isOutstanding = false → ∀ i : LaneId, (t.lane i).state = .off) ∧
         t = { s with eng := { s.eng with result := .accepted, aborting := true }, cal := [], loader := t.loader,
                      port := { s.port with loader := s.port.loader.withdrawn,
                                            writer := s.port.writer.withdrawn } })) ∧
  (∀ (s : State) (rq : Request) (k : Byte) (g : Nat) (ok : Bool) (d : BusData), s.free → s.port.quiet = none →
     s.eng.resetPending = false → s.eng.state = .preparing → s.eng.aborting = true →
     let off (t : State) : Prop := t.eng.state = .off ∧ t.eng.prepError = .aborted ∧
       t.eng.session = s.eng.session ∧ t.win = { s.win with alert := s.win.alert ||| 0x80 }
     let same (t : State) : Prop := t.cal = s.cal ∧ t.chans = s.chans ∧ t.conv = s.conv ∧ t.tb = s.tb ∧ t.pins = s.pins
     (s.eng.checked = false → s.eng.task.isRead = true → s.port.engine = .outstanding rq k g →
       ∃ t, exec (.response .engine k ok d) s = .next t ∧ off t ∧ same t ∧ t.loader = s.loader ∧ t.wr = s.wr) ∧
     (s.eng.checked = true → s.port.loader = .outstanding rq k g →
       ∃ t, exec (.response .loader k ok d) s = .next t ∧ same t ∧ t.wr = s.wr ∧
         (∀ i : LaneId, (t.lane i).state = .off) ∧ (s.port.writer.isOutstanding = false → off t) ∧
         (s.port.writer.isOutstanding = true → t.eng = s.eng ∧ t.win = s.win)) ∧
     (s.eng.checked = true → s.port.writer = .outstanding rq k g →
       ∃ t, exec (.response .writer k ok d) s = .next t ∧ same t ∧ t.wr = { s.wr with task := .none } ∧
         (s.port.loader.isOutstanding = false → off t) ∧
         (s.port.loader.isOutstanding = true → t.eng = s.eng ∧ t.win = s.win ∧ t.loader = s.loader))) ∧
  (∀ s : State, s.free → s.accepts .abort → s.eng.state = .preparing → (∀ r, (s.port.request r).isOutstanding = false) →
     ∃ t, exec .abort s = .next t ∧ t.eng.state = .off ∧ t.eng.prepError = .aborted ∧ t.eng.result = .accepted ∧
       t.eng.endCause = s.eng.endCause ∧ t.eng.session = s.eng.session ∧
       t.win = { s.win with alert := s.win.alert ||| 0x80 } ∧
       (s.eng.checked = false → t.eng.staleRead = s.port.engine.isWaiting ∧ t = { s with eng := t.eng, win := t.win }) ∧
       (s.eng.checked = true → t.cal = [] ∧ (∀ i : LaneId, (t.lane i).state = .off) ∧
         t = { s with eng := t.eng, win := t.win, cal := [], loader := t.loader,
                      port := { s.port with loader := .none, writer := .none } })) ∧
  (∀ (s : State) (rq : Request) (k : Byte) (g : Nat) (d : BusData), s.free → s.port.quiet = none →
     s.eng.resetPending = false → s.eng.state = .ended → s.eng.windDown = false → s.wr.aborting = true →
     s.port.writer = .outstanding rq k g →
     (∀ p n, s.wr.state = .opened → s.wr.page = some p → s.wr.task = .record n →
       ∃ t, exec (.response .writer k true d) s = .next t ∧ t.wr.page = some (p.after n s.now) ∧
         t.wr.task = .header { cause := .aborted, seq := s.wr.closeSeq + 1, time := s.now, lost := s.wr.lost,
                               marker := none } ∧ t.eng = s.eng) ∧
     (∀ x, s.wr.state ≠ .opened → s.wr.state ≠ .done → s.wr.task = .fill x →
       ∃ t, exec (.response .writer k true d) s = .next t ∧ t.wr.state = .done ∧ t.eng.pathComplete = true) ∧
     (∀ c, s.wr.task = .header c → ∃ t, exec (.response .writer k true d) s = .next t ∧
       t.wr = { s.wr with task := .closed c } ∧ t.eng = s.eng) ∧
     (∀ c, s.wr.task = .closed c →
       ∃ t, exec (.response .writer k true d) s = .next t ∧ t.wr.state = .done ∧ t.wr.page = none ∧
         t.eng = { s.eng with pathComplete := true } ∧ t.win = { s.win with alert := s.win.alert ||| 0x01 }) ∧
     (∃ t, exec (.response .writer k false d) s = .next t ∧ t.wr.state = .done ∧ t.eng.state = .faulted ∧
       t.eng.faultCode = some .resultPathError ∧ t.eng.faultAddr = rq.addr ∧ t.eng.endCause = s.eng.endCause ∧
       t.win = { s.win with alert := s.win.alert ||| 0x40 }))

/-- NUDGE (R165): ACCEPTED in every state; every WAITING lane, and in the named states a STARVED writer, receives a
reread request, unless an engine reset is pending, as at a scan event (R34, R133); in DRAINING the writer does while
its starve count is below 16. That limit, and when a read is issued, are the model's reading (logs 24 and 13). -/
def Obligations.NudgeAsksRereads : Prop :=
  ∀ s : State, s.free → ∃ t, exec .nudge s = .next t ∧
    t.eng = { s.eng with result := .accepted } ∧ t.wr.starveCount = s.wr.starveCount ∧
    (s.eng.resetPending = true → t = { s with eng := t.eng }) ∧
    (s.eng.resetPending = false →
      (∀ i : LaneId, s.laneAsked i (t.lane i)) ∧
      (s.wr.state ≠ .starved ∨ s.eng.state = .off ∨ s.eng.state = .ended ∨ s.eng.state = .faulted ∨
          (s.eng.state = .preparing ∧ s.eng.aborting = true) ∨ (s.eng.state = .draining ∧ 16 ≤ s.wr.starveCount) →
        t.wr = s.wr) ∧
      (s.wr.state = .starved →
          ((s.eng.state = .preparing ∧ s.eng.aborting = false) ∨ s.eng.state = .armed ∨ s.eng.state = .running ∨
            (s.eng.state = .draining ∧ s.wr.starveCount < 16)) →
          s.writerAsked t.wr)) ∧
    t = { s with eng := t.eng, loader := { s.loader with lanes := t.loader.lanes }, wr := t.wr }

/-- RESET (R166, R176): ACCEPTED in every state; reset pending becomes present, every waiting request is withdrawn and
every outstanding one goes on; a second RESET has no further effect. ENGINE_RESET: with a reset pending and no
transaction outstanding it takes effect; BASE, ALERT_ENABLE and the session number keep their values. While a
transaction is outstanding, or no reset is pending, nothing happens. What an engine reset keeps besides is the model's
reading (log 28). -/
def Obligations.ResetCommandAndEngineReset : Prop :=
  (∀ s : State, s.free → ∃ t, exec .reset s = .next t ∧
     t.eng = { s.eng with result := .accepted, resetPending := true, staleRead := t.eng.staleRead } ∧
     (s.eng.resetPending = true → t = { s with eng := { s.eng with result := .accepted } }) ∧
     (s.eng.resetPending = false →
       (t.eng.staleRead = (s.eng.staleRead && !s.port.engine.isWaiting)) ∧
       (∀ r, t.port.request r = (s.port.request r).withdrawn) ∧
       (∀ r, t.port.issue r = s.port.issue r) ∧ t.port.path = s.port.path ∧ t.port.window = s.port.window ∧
       t.loader.lanes = s.loader.lanes) ∧
     t = { s with eng := t.eng, port := t.port, loader := { s.loader with access := t.loader.access } }) ∧
  (∀ s : State, s.free →
     (s.eng.resetPending = true → (∀ r, (s.port.request r).isOutstanding = false) →
       ∃ t, exec .engineReset s = .next t ∧ t.blocksReset ∧ t.eng.state = .off ∧ t.eng.resetPending = false ∧
         t.eng.result = .accepted ∧ t.eng.prepError = .none ∧ t.eng.endCause = .none ∧ t.eng.faultCode = none ∧
         t.eng.faultAddr = 0 ∧ t.eng.secondary = false ∧ t.eng.windDown = false ∧ t.eng.lastStart = .low ∧
         t.win.alert = 0 ∧ t.win.timeHi = 0 ∧ t.int = false ∧ t.win.base = s.win.base ∧ t.win.enable = s.win.enable ∧
         t.eng.session = s.eng.session ∧ t.pins.tin = s.pins.tin ∧ t.pins.start = s.pins.start) ∧
     ((s.eng.resetPending = false ∨ ∃ r, (s.port.request r).isOutstanding = true) → exec .engineReset s = .next s))

/-! ## Time, lines and tick arrivals -/

/-- TIMEBASE_TICK (R154, R78): with no engine reset due, a timebase that runs rises by 1, below its last value, and one
that is held keeps its value; and each output line presents the level its channel holds. A new tick begins: while the
session goes on each channel may take its tick arrival again (R54), and in ARMED, RUNNING and DRAINING the tick counts
toward the scan period, from 1 again where a scan event was due (R33). What a tick takes before it rises, from where the
period is counted, and that a line changes at the tick's end, are the model's (logs 3, 23 and 29). -/
def Obligations.TickAdvancesTimebase : Prop :=
  ∀ s : State, s.free → ∃ t, exec .timebaseTick s = .next t ∧
    (s.tb.runs = true → (s.eng.resetPending = false ∨ ∃ r, (s.port.request r).isOutstanding = true) →
      s.tb.count.toNat + 1 < 2 ^ 48 → t.tb.runs = true ∧ t.tb.count.toNat = s.tb.count.toNat + 1) ∧
    (s.tb.runs = false → (s.eng.resetPending = false ∨ ∃ r, (s.port.request r).isOutstanding = true) →
      t.tb.count = s.tb.count) ∧
    ((s.eng.resetPending = false ∨ ∃ r, (s.port.request r).isOutstanding = true) →
      (s.tb.runs = true → s.tb.count.toNat + 1 < 2 ^ 48) →
      (s.eng.state = .armed ∨ s.eng.state = .running ∨ s.eng.state = .draining ∨
          (s.eng.state = .preparing ∧ s.eng.checked = true) →
        ∀ ch : ChanId, (t.chan ch).arrived = false) ∧
      (s.eng.state = .armed ∨ s.eng.state = .running ∨ s.eng.state = .draining →
        t.tb.scanCount = if s.params.scanPeriod.toNat ≤ s.tb.scanCount then 1 else s.tb.scanCount + 1) ∧
      (s.eng.state ≠ .armed → s.eng.state ≠ .running → s.eng.state ≠ .draining → t.tb.scanCount = s.tb.scanCount)) ∧
    (∀ ch : ChanId, t.pins.tout[ch] = (t.chan ch).output) ∧
    t.pins.tin = s.pins.tin ∧ t.pins.start = s.pins.start ∧ t.eng.session = s.eng.session

/-- TIMEBASE_END (R155, R160, R161): at 2^48 - 1 a running timebase stops there; the engine is FAULTED with FAULT set,
the Calendar is empty, the channels are stopped and the Converter OFF. The writer (R142): IDLE, OPEN, or STARVED with a
reread under way it holds the FAULT record and flushes; DONE it counts the FAULT record lost and the result path is
complete; STARVED with no reread under way it gives up, what it held and the FAULT record counted lost (the model's
reading, log 15). The flush: an IDLE writer takes a slot for the FAULT record; after the last queued record of an open
page it closes the page with FULL when the FAULT record does not fit; with the queue empty it presents the write of the
FAULT record, whose answer begins the close with cause FAULT; the CLOSED write's answer makes it DONE and the path
complete; a failed access is a second failure (R162). When the lost total of a close is read is the model's reading (log
14). -/
def Obligations.TimebaseEndFaults : Prop :=
  (∀ s : State, s.free → s.tb.runs = true → s.tb.count.toNat = 2 ^ 48 - 1 → s.eng.resetPending = false →
    (s.eng.state = .running ∨ s.eng.state = .draining) → ∃ t, exec .timebaseEnd s = .next t ∧
      t.eng.state = .faulted ∧ t.eng.windDown = false ∧ t.eng.faultCode = some .timebaseEnd ∧ t.eng.faultAddr = 0 ∧
      t.eng.converterIdle = true ∧ t.eng.session = s.eng.session ∧
      t.win = { s.win with alert := s.win.alert ||| 0x40 } ∧ t.tb = { s.tb with runs := false } ∧ t.cal = [] ∧
      (∀ i : LaneId, (t.lane i).state ≠ .active ∧ (t.lane i).state ≠ .waiting ∧ (t.lane i).state ≠ .blocked ∧
        (t.lane i).acceptedHead = none) ∧
      (∀ ch : ChanId, t.chan ch = (s.chan ch).sessionStop) ∧
      t.conv.power = .off ∧ t.conv.queue = [] ∧ t.conv.inFlight = none ∧
      (s.wr.state = .idle ∨ s.wr.state = .opened ∨ (s.wr.state = .starved ∧ s.wr.task ≠ .none) →
        t.wr.state = s.wr.state ∧ t.wr.flushing = true ∧
        t.wr.faultRecord = some { code := .timebaseEnd, secondary := false, address := 0, tick := s.now }) ∧
      (s.wr.state = .done → t.eng.pathComplete = true ∧ t.wr = { s.wr with lost := t.wr.lost } ∧
        t.wr.lost.toNat = lostAfter s.wr.lost ((s.stopRecords s.cal).length + 1)) ∧
      (s.wr.state = .starved → s.wr.task = .none → t.eng.pathComplete = true ∧ t.wr.state = .done ∧ t.wr.queue = [] ∧
        t.wr.lost.toNat = lostAfter s.wr.lost (recordCount s.wr.queue + (s.stopRecords s.cal).length + 1)) ∧
      t.params = s.params ∧ t.links = s.links ∧ t.pins = s.pins) ∧
  (∀ (s : State) (f : FaultRecord), s.free → s.eng.resetPending = false → s.eng.state = .faulted →
     s.wr.flushing = true → s.wr.aborting = false → s.wr.faultRecord = some f →
     (s.wr.state = .idle → s.wr.task = .none → s.wr.queue = [] →
       exec .slotTaking s = .next { s with wr := { s.wr with task := .table [] } }) ∧
     (∀ p w, s.wr.state = .opened → s.wr.page = some p → s.wr.task = .none → s.wr.queue = [] →
       s.port.writer = .none → s.port.window = some w → w.covers (p.address + BitVec.ofNat 32 p.nextFree) 32 →
       exec (.requestPresent .writer) s = .next { s with
         wr := { s.wr with task := .faultRecord }
         port := { s.port with writer := .waiting { addr := p.address + BitVec.ofNat 32 p.nextFree, len := 32,
                                                    write := true, data := f.bytes } } }) ∧
     (∀ p r rq k g d, s.wr.state = .opened → s.wr.page = some p → s.wr.task = .record (recLength r) →
       s.wr.queue = [.record r] → s.wr.deadlineDue = false → s.port.quiet = none →
       s.port.writer = .outstanding rq k g → ∃ t, exec (.response .writer k true d) s = .next t ∧
         t.wr.queue = [] ∧ t.wr.page = some (p.after (recLength r) s.now) ∧ t.wr.faultRecord = some f ∧
         (p.nextFree + recLength r + 32 ≤ p.size.toNat → t.wr.task = .none ∧ t.wr.closeSeq = s.wr.closeSeq) ∧
         (p.size.toNat < p.nextFree + recLength r + 32 → t.wr.task = .header {
           cause := .full, seq := s.wr.closeSeq + 1, time := s.now, lost := s.wr.lost, marker := none })) ∧
     (∀ p rq k g d, s.wr.state = .opened → s.wr.page = some p → s.wr.task = .faultRecord → s.wr.queue = [] →
       s.port.quiet = none → s.port.writer = .outstanding rq k g → ∃ t, exec (.response .writer k true d) s = .next t ∧
         t.wr.page = some (p.after 32 s.now) ∧ t.wr.faultRecord = none ∧
         t.wr.task = .header { cause := .fault, seq := s.wr.closeSeq + 1, time := s.now, lost := s.wr.lost,
                               marker := none } ∧ t.eng = s.eng)) ∧
  (∀ (s : State) (rq : Request) (k : Byte) (g : Nat) (d : BusData), s.free → s.port.quiet = none →
     s.eng.resetPending = false → s.eng.state = .faulted → s.wr.flushing = true →
     s.port.writer = .outstanding rq k g →
     (∀ c, s.wr.task = .closed c → c.cause = .fault → ∃ t, exec (.response .writer k true d) s = .next t ∧
       t.wr.state = .done ∧ t.wr.page = none ∧ t.eng = { s.eng with pathComplete := true } ∧
       t.win = { s.win with alert := s.win.alert ||| 0x01 }) ∧
     (∃ t, exec (.response .writer k false d) s = .next t ∧ t.wr.state = .done ∧ t.wr.queue = [] ∧
       t.wr.faultRecord = none ∧ t.eng = { s.eng with secondary := true, pathComplete := true } ∧ t.win = s.win))

/-- The channel's clock brings a clock event at this tick arrival (R55, R56): a divider that reaches its count, or a
selected edge of the input line. A clock event advances the counter (R59): to 0 with a wrap at the wrap limit, where
the staged marks are taken (R60), to A with an A-match, else by 1 with no event. The wrap limit (R58): P, or 65536 for
P 0, or A + 1 with wrap source ACTION; a ONE_SHOT channel has none. Taking staged marks (R70): those present replace
the active ones, the others are kept, and the staged marks become absent. The counter's range is an invariant
(StepKeepsCountersInRange), and a ONE_SHOT channel counts PULSING. -/
def Obligations.ClockEventAdvances : Prop :=
  (∀ (c : Channel) (st : Settings) (edge : Option Edge),
     (∀ k, st.clock = .div k → c.phase + 1 < 2 ^ k.val → c.clock st edge = ({ c with phase := c.phase + 1 }, false)) ∧
     (∀ k, st.clock = .div k → ¬ c.phase + 1 < 2 ^ k.val → c.clock st edge = ({ c with phase := 0 }, true)) ∧
     (∀ e, edge = some e → st.clock.isEdge = true →
       ((c.clock st edge) = (c, true) ↔
         (st.clock = .edgeBoth ∨ (st.clock = .edgeRise ∧ e = .rise) ∨ (st.clock = .edgeFall ∧ e = .fall)))) ∧
     (edge = none → st.clock.isEdge = true → c.clock st edge = (c, false))) ∧
  (∀ (c : Channel) (st : Settings), c.settings = some st → c.countsInRange → (st.shape = .oneShot → c.mode = .pulsing) →
     (st.wrapLimit = some (c.counter.toNat + 1) →
       (c.advance st).2 = some .wrap ∧ (c.advance st).1.counter = 0 ∧
         (c.advance st).1.wrapCount = c.wrapCount + 1 ∧ (c.advance st).1.staged = none ∧
         (c.advance st).1 = { c.takeMarks with
           counter := 0, wrapCount := c.wrapCount + 1, output := (c.advance st).1.output }) ∧
     (st.wrapLimit ≠ some (c.counter.toNat + 1) → c.counter.toNat + 1 = st.action.toNat →
       (c.advance st).2 = some .action ∧ (c.advance st).1.counter = st.action ∧
         (c.advance st).1 = { c with
           counter := st.action, output := (c.advance st).1.output, mode := (c.advance st).1.mode }) ∧
     (st.wrapLimit ≠ some (c.counter.toNat + 1) → c.counter.toNat + 1 ≠ st.action.toNat →
       c.advance st = ({ c with counter := c.counter + 1 }, none) ∧
         (c.counter + 1).toNat = c.counter.toNat + 1)) ∧
  (∀ st : Settings, (st.shape = .oneShot → st.wrapLimit = none) ∧
     (st.shape ≠ .oneShot → st.wrapSource = .action → st.wrapLimit = some (st.action.toNat + 1)) ∧
     (st.shape ≠ .oneShot → st.wrapSource = .period → st.period = 0 → st.wrapLimit = some 65536) ∧
     (st.shape ≠ .oneShot → st.wrapSource = .period → st.period ≠ 0 → st.wrapLimit = some st.period.toNat)) ∧
  (∀ (st : Settings) (m : Marks),
     (m.period = none → (st.withMarks m).period = st.period) ∧ (∀ v, m.period = some v → (st.withMarks m).period = v) ∧
     (m.action = none → (st.withMarks m).action = st.action) ∧ (∀ v, m.action = some v → (st.withMarks m).action = v) ∧
     st.withMarks m = { st with period := (st.withMarks m).period, action := (st.withMarks m).action }) ∧
  (∀ c : Channel, (c.staged = none → c.takeMarks = c) ∧
     (∀ m st, c.staged = some m → c.settings = some st →
       c.takeMarks = { c with settings := some (st.withMarks m), staged := none }))

/-- What the shape does to the output at an A-match and at a wrap (R60, R61, R80, R82, R89, R95): MATCH applies its
match action, WAVE goes inactive at A and active at a wrap when A is not 0, ONE_SHOT ends its pulse, CAPTURE keeps its
output. -/
def Obligations.ShapeActsOnOutput : Prop :=
  ∀ (c : Channel) (st : Settings),
    (st.shape = .matching → (c.aMatch st).mode = c.mode ∧
      (c.aMatch st).output = match st.matchAction with
        | .none => c.output
        | .low => .low
        | .high => .high
        | .toggle => levelFlip c.output) ∧
    (st.shape = .wave → c.aMatch st = { c with output := if st.polarity = .activeHigh then .low else .high }) ∧
    (st.shape = .oneShot → st.rearm = true →
      c.aMatch st = { c with mode := .armed, output := if st.polarity = .activeHigh then .low else .high }) ∧
    (st.shape = .oneShot → st.rearm = false → c.aMatch st = { c with mode := .stopped, output := c.restLevel }) ∧
    (st.shape = .capture → c.aMatch st = c) ∧
    (∀ u, c.takeMarks.settings = some u →
      c.wrap.output =
        if u.shape = .wave then
          (if (u.polarity = .activeHigh ↔ u.action ≠ 0) then .high else .low)
        else c.output)

/-- TICK_ARRIVAL: the sample is taken and the line keeps the level (R54); no other channel changes. A channel that is
not counting (R57): UNSET, STOPPED or PAUSED nothing else changes; ARMED, an edge that its input edge setting selects
begins the pulse (R86), any other does not. A counting channel (R57, R59, R60, R61, R99): RUNNING or PULSING with the
restart tick absent or in the past, it takes its clock event, of a divider or of an edge of the line; the link of the
action or wrap event is sent out with the channel tag, kind and link. Then a selected edge (R86 to R88, R96, R97): a
RUNNING CAPTURE channel gives its record, with the counter and wrap count that the clock event of this tick left; an
ARMED ONE_SHOT channel begins the pulse, a PULSING one restarts it under EXTEND and ignores the edge under IGNORE. At
its restart tick a channel does not count; at the tick of a RESUME no edge acts (R72, R98). A link sent out is a
delivery under way (the model's reading, log 21). -/
def Obligations.TickArrivals : Prop :=
  ∀ (s : State) (ch : ChanId) (level : Level), s.free → s.sessionAlive = true → (s.chan ch).arrived = false →
    let sampled : Channel := { s.chan ch with lastSample := level, arrived := true }
    ∃ t, exec (.tickArrival ch level) s = .next t ∧
      t = { s with pins := { s.pins with tin := s.pins.tin.set ch.val level ch.isLt },
                   chans := s.chans.set ch.val (t.chan ch) ch.isLt, links := t.links, wr := t.wr } ∧
      ((s.chan ch).mode = .unset ∨ (s.chan ch).mode = .stopped ∨ (s.chan ch).mode = .paused →
        t.chan ch = { sampled with resumed := false } ∧ t.links = s.links ∧ t.wr = s.wr) ∧
      (∀ st, (s.chan ch).settings = some st → (s.chan ch).mode = .armed → st.shape = .oneShot →
        let picked : Prop := st.inputEdge.picks (s.chan ch).lastSample level ∧ (s.chan ch).resumed = false
        (picked → t.chan ch = { sampled.pulseBegun s.now (if st.polarity = .activeHigh then .high else .low) with
          resumed := false }) ∧
        (¬ picked → t.chan ch = { sampled with resumed := false }) ∧
        t.links = s.links ∧ t.wr = s.wr) ∧
      (∀ st, (s.chan ch).settings = some st → ((s.chan ch).mode = .running ∨ (s.chan ch).mode = .pulsing) →
        let ticked : Channel × Bool := sampled.clock st (edgeOf (s.chan ch).lastSample level)
        let counts : Prop := ∀ r, (s.chan ch).restart = some r → r.toNat < s.now.toNat
        let picked : Prop := st.inputEdge.picks (s.chan ch).lastSample level ∧ (s.chan ch).resumed = false
        ∃ (counted : Channel) (event : Option EventKind),
          (¬ counts → counted = sampled ∧ event = none) ∧
          (counts → ticked.2 = false → counted = ticked.1 ∧ event = none) ∧
          (counts → ticked.2 = true → (counted, event) = ticked.1.advance st) ∧
          (event = none → t.links = s.links) ∧
          (event = some .action → st.linkAction = .none → t.links = s.links) ∧
          (event = some .action → st.linkAction ≠ .none →
            t.links = s.links ++ [{ source := ch, kind := .action, tag := (s.chan ch).tag, link := st.linkAction }]) ∧
          (event = some .wrap → st.linkWrap = .none → t.links = s.links) ∧
          (event = some .wrap → st.linkWrap ≠ .none →
            t.links = s.links ++ [{ source := ch, kind := .wrap, tag := (s.chan ch).tag, link := st.linkWrap }]) ∧
          (¬ picked → t.chan ch = { counted with resumed := false } ∧ t.wr = s.wr) ∧
          (picked → st.shape = .capture → (s.chan ch).mode = .running →
            t.chan ch = { counted with resumed := false } ∧
            t.wr = s.wr.offer s.now (.capture ch (if level = .high then .rise else .fall) counted.counter counted.tag
              counted.wrapCount s.now) ∧
            (s.wr.keeps = true → s.wr.queue.length < 32 → t.wr.lost = s.wr.lost ∧
              t.wr.queue = s.wr.queue ++ [.record (.capture ch (if level = .high then .rise else .fall) counted.counter
                counted.tag counted.wrapCount s.now)])) ∧
          (picked → st.shape = .oneShot → t.wr = s.wr ∧
            (counted.mode = .armed →
              t.chan ch = { counted.pulseBegun s.now (if st.polarity = .activeHigh then .high else .low) with
                resumed := false }) ∧
            (counted.mode = .pulsing → st.retrigger = .extend →
              t.chan ch = { counted.pulseBegun s.now counted.output with resumed := false }) ∧
            (counted.mode = .pulsing → st.retrigger = .ignore → t.chan ch = { counted with resumed := false })))

/-- SCAN_EVENT (R33, R134): once a scan period has passed in ARMED, RUNNING or DRAINING, every WAITING lane receives a
reread request and the period starts again; so does a STARVED writer, which in DRAINING raises its starve count, to at
most 16. A request that finds none becomes present; one that finds a present one is kept where its read is issued, or
the reread begun, and else adds nothing (R34, R133). From where the period is counted, the starve count below which a
drain rereads, and when a read is issued are the model's (logs 23, 24 and 13). -/
def Obligations.ScanEventRereads : Prop :=
  ∀ s : State, s.free → (s.eng.state = .armed ∨ s.eng.state = .running ∨ s.eng.state = .draining) →
    s.params.scanPeriod.toNat ≤ s.tb.scanCount → ∃ t, exec .scanEvent s = .next t ∧
      t.tb = { s.tb with scanCount := 0 } ∧
      (∀ i : LaneId, s.laneAsked i (t.lane i)) ∧
      (s.wr.state ≠ .starved → t.wr = s.wr) ∧
      (s.wr.state = .starved → s.eng.state ≠ .draining → s.writerAsked t.wr) ∧
      (s.wr.state = .starved → s.eng.state = .draining → s.wr.starveCount < 16 →
        t.wr.starveCount = s.wr.starveCount + 1 ∧ s.writerAsked { t.wr with starveCount := s.wr.starveCount }) ∧
      (s.wr.state = .starved → s.eng.state = .draining → 16 ≤ s.wr.starveCount →
        t.wr = { s.wr with starveCount := 16 }) ∧
      t = { s with tb := t.tb, loader := { s.loader with lanes := t.loader.lanes }, wr := t.wr }

/-! ## The Calendar and the cue verbs -/

/-- EXPIRY takes the earliest entry when its due time is reached in RUNNING, and the row of that entry's verb is the
same dispatch (assumption log 4); with no entry due nothing happens (R17). An END cue empties the Calendar, but not
while an engine reset is pending: that such a cue is retired then, begins no drain and leaves the other entries is the
model's reading of R166 (log 19). A retirement (R22, R43): the lane's count and the count of the named trail entries
rise by 1, and a held head whose earlier cues have then all retired retires as well and frees the head place; nothing
else of the lane changes. -/
def Obligations.ExpiryAndRetirement : Prop :=
  ((∀ (s : State) (e : Entry) (rest : List Entry), s.free → s.eng.state = .running → s.cal = e :: rest →
     e.cue.due.toNat ≤ s.now.toNat →
     exec (rowOf e.cue.action) s = exec .expiry s ∧
     ∃ t, exec .expiry s = .next t ∧ t.cal = (if e.cue.action = .engine .endCue ∧ s.eng.resetPending = false ∧
         ¬ (e.cue.due.toNat < s.now.toNat ∧ e.cue.late = .skip) then [] else rest)) ∧
   (∀ s : State, s.free → (s.eng.state ≠ .running ∨ ∀ e ∈ s.cal, s.now.toNat < e.cue.due.toNat) →
     exec .expiry s = .next s)) ∧
  (∀ (l : Lane) (ref : Word),
     l.retire ref = { l with cuesRetired := (l.retire ref).cuesRetired, trail := (l.retire ref).trail,
                             head := (l.retire ref).head } ∧
     (l.retire ref).trail.map (fun x => (x.address, x.fetched, x.finish)) =
       l.trail.map (fun x => (x.address, x.fetched, x.finish)) ∧
     ((l.head = none ∨ (∃ h c, l.head = some h ∧ h.body = .accepted c) ∨
         (∃ h, l.head = some h ∧ l.cuesRetired + 1 ≠ h.seq)) →
       (l.retire ref).head = l.head ∧ (l.retire ref).cuesRetired = l.cuesRetired + 1 ∧
       (l.retire ref).trail = l.trail.map fun x => if x.address = ref then { x with retired := x.retired + 1 } else x) ∧
     (∀ h o, l.head = some h → h.body = .held o → l.cuesRetired + 1 = h.seq →
       (l.retire ref).head = none ∧ (l.retire ref).cuesRetired = l.cuesRetired + 2))

/-- A late SKIP entry is removed without dispatch: SKIPPED_LATE is reported with its lateness, LATE is set, and the
target is as it was (R20, R5, R6). A late RUN_LATE entry is dispatched as on time (R19): its target takes the verb and
gives its records, then the cue is reported whatever its report flag, with its lateness, LATE set, and the outcome of
Table 1-4: DONE_LATE for a plain outcome, else the outcome unchanged, with REFUSE set as well. A late CLOSE_PAGE places
its marker with the lateness; a late END begins the drain after its report. A head that is late when it is taken in
RUNNING and no entry comes before it is handled at once and never stands in the Calendar: a RUN_LATE NOTE gives its
record and DONE_LATE, a SKIP cue gives SKIPPED_LATE alone; both with their lateness and LATE (R16, R19, R20). That a
late END's LANE_EVENT records stand before its DROP records is the model's choice (log 5). -/
def Obligations.LateCues : Prop :=
  (∀ (s : State) (e : Entry) (rest : List Entry), s.free → s.eng.state = .running → s.cal = e :: rest →
     e.cue.due.toNat < s.now.toNat → e.cue.late = .skip →
     ∃ t, exec .expiry s = .next t ∧ t.cal = rest ∧ t.chans = s.chans ∧ t.conv = s.conv ∧ t.eng = s.eng ∧
       t.wr = s.wr.offer s.now (.cueReport {
         lane := e.lane, seq := e.seq, code := e.cue.action.code,
         outcome := .skippedLate, time := s.now, detail := BitVec.ofNat 16 (min 65535 (s.now.toNat - e.cue.due.toNat)),
         tag := e.cue.tag }) ∧
       t.win = { s.win with alert := s.win.alert ||| 0x04 } ∧
       t.lane e.lane = (s.lane e.lane).retire e.trailRef ∧
       t.tb = s.tb ∧ t.params = s.params ∧ t.links = s.links ∧ t.port = s.port ∧ t.pins = s.pins) ∧
  (∀ (s : State) (e : Entry) (rest : List Entry), s.free → s.eng.state = .running → s.cal = e :: rest →
     e.cue.due.toNat < s.now.toNat → e.cue.late = .runLate →
     let plain (o : CueOutcome) : Prop := o = .done ∨ o = .doneReplacing ∨ o = .already ∨ o = .ignored
     let retiredLate (t : State) (o : CueOutcome) (w : Writer) : Prop :=
       t.cal = rest ∧ t.lane e.lane = (s.lane e.lane).retire e.trailRef ∧
       (plain o → t.wr = w.offer s.now (s.lateReport e .doneLate) ∧
         t.win = { s.win with alert := s.win.alert ||| 0x04 }) ∧
       (¬ plain o → t.wr = w.offer s.now (s.lateReport e o) ∧
         t.win = { s.win with alert := s.win.alert ||| 0x04 ||| 0x08 }) ∧
       t.eng = s.eng ∧ t.tb = s.tb ∧ t.params = s.params ∧ t.links = s.links ∧ t.port = s.port ∧ t.pins = s.pins
     (∀ ch v, e.cue.action = .channel ch v →
       let r := (s.chan ch).take ch s.now e.cue.tag v
       ∃ t, exec .expiry s = .next t ∧ retiredLate t r.2.1 (s.wr.offered s.now r.2.2) ∧ onlyChannel s t ch r.1) ∧
     (∀ v, e.cue.action = .converter v →
       let r := s.conv.take (.cue e.lane e.seq) e.cue.tag s.now s.tb.divider v
       ∃ t, exec .expiry s = .next t ∧ retiredLate t r.2.1 (s.wr.offered s.now r.2.2) ∧ t.chans = s.chans ∧
         t.conv = r.1) ∧
     (∀ p, e.cue.action = .engine (.note p) →
       ∃ t, exec .expiry s = .next t ∧ t.chans = s.chans ∧ t.conv = s.conv ∧
         retiredLate t .done (s.wr.offer s.now (.note e.cue.tag (if e.cue.payloadPresent then some p else none) s.now))) ∧
     (e.cue.action = .engine .closePage → s.wr.queue.length < 32 → s.wr.keeps = true →
       ∃ t, exec .expiry s = .next t ∧ t.cal = rest ∧ t.lane e.lane = (s.lane e.lane).retire e.trailRef ∧
         t.wr = { s.wr with queue := s.wr.queue ++ [.closeMarker {
           lane := e.lane, seq := e.seq, tag := e.cue.tag, report := e.cue.report, time := s.now,
           lateness := some (s.latenessOf e.cue.due) }] } ∧
         t.win = { s.win with alert := s.win.alert ||| 0x04 } ∧ t.chans = s.chans ∧ t.conv = s.conv ∧ t.eng = s.eng) ∧
     (e.cue.action = .engine .closePage → s.wr.queue.length = 32 →
       ∃ t, exec .expiry s = .next t ∧ t.chans = s.chans ∧ t.conv = s.conv ∧ retiredLate t .refusedQueueFull s.wr) ∧
     (e.cue.action = .engine .endCue → s.eng.resetPending = false →
       ∃ t, exec .expiry s = .next t ∧ t.cal = [] ∧ t.eng.state = .draining ∧ t.eng.endCause = .endCue ∧
         t.wr = (s.wr.offer s.now (s.lateReport e .doneLate)).drained s.now (s.drainRecords rest) ∧
         t.win = { s.win with alert := s.win.alert ||| 0x04 })) ∧
  (∀ (s : State) (i : LaneId) (h : Head) (c : Cue), s.free → s.eng.state = .running →
     (s.lane i).head = some h → h.body = .accepted c → (s.lane i).state = .active → s.cal.length + 4 ≤ 48 →
     c.due.toNat < s.now.toNat →
     (∀ x ∈ s.cal, Entry.before { cue := c, lane := i, seq := h.seq, trailRef := h.trailRef, lateMark := false } x = true) →
     let report (o : CueOutcome) : Rec := .cueReport {
       lane := i, seq := h.seq, code := c.action.code, outcome := o, time := s.now,
       detail := BitVec.ofNat 16 (min 65535 (s.now.toNat - c.due.toNat)), tag := c.tag }
     (c.late = .skip →
       ∃ t, exec (.laneHeadOffer i) s = .next t ∧ t.cal = s.cal ∧ t.wr = s.wr.offer s.now (report .skippedLate) ∧
         t.win = { s.win with alert := s.win.alert ||| 0x04 } ∧ t.chans = s.chans ∧ t.conv = s.conv ∧ t.eng = s.eng ∧
         (t.lane i).head = none) ∧
     (∀ p, c.late = .runLate → c.action = .engine (.note p) →
       ∃ t, exec (.laneHeadOffer i) s = .next t ∧ t.cal = s.cal ∧
         t.wr = (s.wr.offer s.now (.note c.tag (if c.payloadPresent then some p else none) s.now)).offer s.now
           (report .doneLate) ∧
         t.win = { s.win with alert := s.win.alert ||| 0x04 } ∧ t.chans = s.chans ∧ t.conv = s.conv ∧ t.eng = s.eng))

/-- A settings record (Table 9-12, R53): each field is read at its offset with its codes, and the record can be read just
when every field holds a listed value, a link number in its kind's range among them. It is legal when besides none of
the conditions 2 to 7 of R53 holds. SET in UNSET or STOPPED with a legal record: STOPPED at the new rest level, all
counts 0, the cue's tag; outcome DONE (R62). The row is the dispatch of the Calendar's earliest entry (log 4). -/
def Obligations.SetCue : Prop :=
  (∀ (own : ChanId) (r : BitVec 160) (st : Settings), legalSettings own r = some st ↔
     (readSettings r = some st ∧
       ¬ (st.shape ≠ .oneShot ∧ st.wrapSource = .action ∧ st.action = 0) ∧
       ¬ (st.shape = .oneShot ∧ st.action = 0) ∧
       ¬ (st.shape = .capture ∧ st.clock.isEdge = true) ∧
       ¬ (st.shape = .oneShot ∧ st.clock.isEdge = true ∧ st.inputEdge ≠ .none) ∧
       ¬ ((st.shape = .matching ∨ st.shape = .wave) ∧ st.inputEdge ≠ .none) ∧
       ¬ (st.linkAction = .fire own ∨ st.linkWrap = .fire own))) ∧
  (∀ (s : State) (e : Entry) (rest : List Entry) (ch : ChanId) (r : BitVec 160) (st : Settings), s.dueNow e rest →
     e.cue.action = .channel ch (.set r) → legalSettings ch r = some st →
     ((s.chan ch).mode = .unset ∨ (s.chan ch).mode = .stopped) →
     ∃ t, exec (.set ch) s = .next t ∧ retiredPlain s t e rest .done s.wr ∧
       onlyChannel s t ch { s.chan ch with
         mode := .stopped, settings := some st, restLevel := st.restLevel,
         output := st.restLevel, staged := none, counter := 0, wrapCount := 0, phase := 0, restart := none,
         pausedFrom := none, tag := e.cue.tag }) ∧
  (∀ r : BitVec 160,
     let byte (off : Nat) : Nat := (r.extractLsb' (8 * off) 8).toNat
     let linkListed (off : Nat) : Prop := (byte off = 0 ∧ byte (off + 1) = 0) ∨ (byte off = 1 ∧ byte (off + 1) < 10) ∨
       (byte off = 2 ∧ byte (off + 1) < 16)
     let level (l : Level) : Nat := match l with
       | .low => 0 | .high => 1
     let linkIs (off : Nat) (l : Link) : Prop := match l with
       | .none => byte off = 0
       | .convert k => byte off = 1 ∧ byte (off + 1) = k.val
       | .fire n => byte off = 2 ∧ byte (off + 1) = n.val
     ((∃ st, readSettings r = some st) ↔
       byte 0x00 ≤ 3 ∧ byte 0x01 ≤ 10 ∧ byte 0x06 ≤ 1 ∧ byte 0x07 ≤ 3 ∧ byte 0x08 ≤ 3 ∧ byte 0x09 ≤ 1 ∧ byte 0x0A ≤ 1 ∧
       byte 0x0B ≤ 1 ∧ byte 0x0C ≤ 1 ∧ byte 0x0D ≤ 1 ∧ linkListed 0x0E ∧ linkListed 0x10) ∧
     (∀ st, readSettings r = some st →
       byte 0x00 = (match st.shape with
         | .matching => 0 | .wave => 1 | .oneShot => 2 | .capture => 3) ∧
       byte 0x01 = (match st.clock with
         | .div k => k.val | .edgeRise => 8 | .edgeFall => 9 | .edgeBoth => 10) ∧
       st.period = r.extractLsb' (8 * 0x02) 16 ∧ st.action = r.extractLsb' (8 * 0x04) 16 ∧
       byte 0x06 = (match st.wrapSource with
         | .period => 0 | .action => 1) ∧
       byte 0x07 = (match st.inputEdge with
         | .none => 0 | .rise => 1 | .fall => 2 | .both => 3) ∧
       byte 0x08 = (match st.matchAction with
         | .none => 0 | .low => 1 | .high => 2 | .toggle => 3) ∧
       byte 0x09 = level st.initialLevel ∧
       byte 0x0A = (match st.polarity with
         | .activeHigh => 0 | .activeLow => 1) ∧
       byte 0x0B = level st.restLevel ∧
       byte 0x0C = (match st.retrigger with
         | .ignore => 0 | .extend => 1) ∧
       byte 0x0D = (if st.rearm then 1 else 0) ∧ linkIs 0x0E st.linkAction ∧ linkIs 0x10 st.linkWrap)) ∧
  (∀ k : Clock, k.isEdge = true ↔ k = .edgeRise ∨ k = .edgeFall ∨ k = .edgeBoth)

/-- START (R63, R64): from STOPPED, RUNNING, PAUSED or PULSING the channel takes its staged marks and starts over at
this tick, RUNNING, or ARMED for ONE_SHOT; in ARMED it has outcome ALREADY and changes nothing. That the counter becomes
0 in PULSING too, where R89 says it is held, and that an input edge at this tick still acts after the START, where R72
has the order make no difference in STOPPED, are the model's readings (logs 36 and 39). The row is the dispatch of the
Calendar's earliest entry (log 4). -/
def Obligations.StartCue : Prop :=
  ∀ (s : State) (e : Entry) (rest : List Entry) (ch : ChanId) (active st : Settings), s.dueNow e rest →
    e.cue.action = .channel ch .start → (s.chan ch).settings = some active →
    st = (match (s.chan ch).staged with
      | none => active
      | some m => { active with period := m.period.getD active.period, action := m.action.getD active.action }) →
    ((s.chan ch).mode = .stopped ∨ (s.chan ch).mode = .running ∨ (s.chan ch).mode = .paused ∨
        (s.chan ch).mode = .pulsing →
      ∃ t, exec (.start ch) s = .next t ∧ retiredPlain s t e rest .done s.wr ∧
        onlyChannel s t ch { s.chan ch with
          settings := some st, staged := none, counter := 0, wrapCount := 0, phase := 0, restart := some s.now,
          pausedFrom := none, tag := e.cue.tag, resumed := false,
          mode := if st.shape = .oneShot then .armed else .running,
          output := match st.shape with
            | .matching => st.initialLevel
            | .wave => if (st.polarity = .activeHigh ↔ st.action ≠ 0) then .high else .low
            | .oneShot => if st.polarity = .activeHigh then .low else .high
            | .capture => st.restLevel }) ∧
    ((s.chan ch).mode = .armed →
      ∃ t, exec (.start ch) s = .next t ∧ retiredPlain s t e rest .already s.wr ∧ onlyChannel s t ch (s.chan ch))

/-- STOP, PAUSE and RESUME in every channel state (R65, R66, R67). A RESUME taken before the tick's arrival keeps that
arrival from acting on an edge (R72, R98). The row is the dispatch of the Calendar's earliest entry (log 4). -/
def Obligations.StopPauseResumeCues : Prop :=
  ∀ (s : State) (e : Entry) (rest : List Entry) (ch : ChanId), s.dueNow e rest →
    (e.cue.action = .channel ch .stop →
      ((s.chan ch).mode = .running ∨ (s.chan ch).mode = .paused ∨ (s.chan ch).mode = .armed ∨
          (s.chan ch).mode = .pulsing →
        ∃ t, exec (.stop ch) s = .next t ∧ retiredPlain s t e rest .done s.wr ∧
          onlyChannel s t ch { s.chan ch with
            mode := .stopped, output := (s.chan ch).restLevel, staged := none,
            pausedFrom := none }) ∧
      ((s.chan ch).mode = .stopped →
        ∃ t, exec (.stop ch) s = .next t ∧ retiredPlain s t e rest .already s.wr ∧ onlyChannel s t ch (s.chan ch)) ∧
      ((s.chan ch).mode = .unset →
        ∃ t, exec (.stop ch) s = .next t ∧ retiredRefused s t e rest .refusedState s.wr ∧
          onlyChannel s t ch (s.chan ch))) ∧
    (e.cue.action = .channel ch .pause →
      ((s.chan ch).mode = .running →
        ∃ t, exec (.pause ch) s = .next t ∧ retiredPlain s t e rest .done s.wr ∧
          onlyChannel s t ch { s.chan ch with mode := .paused, pausedFrom := some .running }) ∧
      ((s.chan ch).mode = .pulsing →
        ∃ t, exec (.pause ch) s = .next t ∧ retiredPlain s t e rest .done s.wr ∧
          onlyChannel s t ch { s.chan ch with mode := .paused, pausedFrom := some .pulsing }) ∧
      ((s.chan ch).mode = .paused →
        ∃ t, exec (.pause ch) s = .next t ∧ retiredPlain s t e rest .already s.wr ∧ onlyChannel s t ch (s.chan ch)) ∧
      ((s.chan ch).mode = .unset ∨ (s.chan ch).mode = .stopped ∨ (s.chan ch).mode = .armed →
        ∃ t, exec (.pause ch) s = .next t ∧ retiredRefused s t e rest .refusedState s.wr ∧
          onlyChannel s t ch (s.chan ch))) ∧
    (e.cue.action = .channel ch .resume →
      ((s.chan ch).mode ≠ .paused →
        ∃ t, exec (.resume ch) s = .next t ∧ retiredRefused s t e rest .refusedState s.wr ∧
          onlyChannel s t ch (s.chan ch)) ∧
      ((s.chan ch).mode = .paused → (s.chan ch).pausedFrom = some .running →
        ∃ t, exec (.resume ch) s = .next t ∧ retiredPlain s t e rest .done s.wr ∧
          onlyChannel s t ch { s.chan ch with
            mode := .running, pausedFrom := none, restart := some s.now, resumed := !(s.chan ch).arrived }) ∧
      ((s.chan ch).mode = .paused → (s.chan ch).pausedFrom = some .pulsing →
        ∃ t, exec (.resume ch) s = .next t ∧ retiredPlain s t e rest .done s.wr ∧
          onlyChannel s t ch { s.chan ch with
            mode := .pulsing, pausedFrom := none, restart := some s.now, resumed := !(s.chan ch).arrived }))

/-- STAGE (R69): in any state but UNSET, marks that keep the settings legal replace the staged marks whole, with outcome
DONE, or DONE_REPLACING when marks stood there; the active marks stay. FIRE (R91, R87, R88): it starts the pulse of an
ARMED ONE_SHOT channel, restarts that of a PULSING one under EXTEND, and is IGNORED under IGNORE. The row is the
dispatch of the Calendar's earliest entry (log 4). -/
def Obligations.StageAndFireCues : Prop :=
  (∀ (s : State) (e : Entry) (rest : List Entry) (ch : ChanId) (m : Marks) (st : Settings), s.dueNow e rest →
     e.cue.action = .channel ch (.stage m) → (s.chan ch).mode ≠ .unset → (s.chan ch).settings = some st →
     let a := m.action.getD st.action
     (¬ (st.shape ≠ .oneShot ∧ st.wrapSource = .action ∧ a = 0) → ¬ (st.shape = .oneShot ∧ a = 0) →
       ∃ t, exec (.stage ch) s = .next t ∧
         retiredPlain s t e rest (if (s.chan ch).staged = none then .done else .doneReplacing) s.wr ∧
         onlyChannel s t ch { s.chan ch with staged := some m })) ∧
  (∀ (s : State) (e : Entry) (rest : List Entry) (ch : ChanId) (st : Settings), s.dueNow e rest →
     e.cue.action = .channel ch .fire → (s.chan ch).settings = some st → st.shape = .oneShot →
     ((s.chan ch).mode = .armed →
       ∃ t, exec (.fire ch) s = .next t ∧ retiredPlain s t e rest .done s.wr ∧
         onlyChannel s t ch { (s.chan ch).takeMarks with
           mode := .pulsing, counter := 0, phase := 0,
           restart := some s.now, output := if st.polarity = .activeHigh then .high else .low }) ∧
     ((s.chan ch).mode = .pulsing → st.retrigger = .extend →
       ∃ t, exec (.fire ch) s = .next t ∧ retiredPlain s t e rest .done s.wr ∧
         onlyChannel s t ch { (s.chan ch).takeMarks with counter := 0, phase := 0, restart := some s.now }) ∧
     ((s.chan ch).mode = .pulsing → st.retrigger = .ignore →
       ∃ t, exec (.fire ch) s = .next t ∧ retiredPlain s t e rest .ignored s.wr ∧ onlyChannel s t ch (s.chan ch)))

/-- SNAPSHOT in any channel state: the record of what the channel holds, before the report; the channel is unchanged
(R68). NOTE (R10) gives its record; CLOSE_PAGE (R11) places its close marker, or is refused by a full queue. The row is
the dispatch of the Calendar's earliest entry (log 4). -/
def Obligations.SnapshotNoteAndClosePageCues : Prop :=
  (∀ (s : State) (e : Entry) (rest : List Entry) (ch : ChanId), s.dueNow e rest →
     e.cue.action = .channel ch .snapshot →
     ∃ t, exec (.snapshot ch) s = .next t ∧ onlyChannel s t ch (s.chan ch) ∧
       retiredPlain s t e rest .done
         (s.wr.offer s.now (.snapshot ch (s.chan ch).mode (s.chan ch).output (s.chan ch).staged.isSome
           (s.chan ch).counter e.cue.tag (s.chan ch).wrapCount s.now))) ∧
  (∀ (s : State) (e : Entry) (rest : List Entry), s.dueNow e rest →
     (∀ p, e.cue.action = .engine (.note p) →
       ∃ t, exec .note s = .next t ∧ t.chans = s.chans ∧ t.conv = s.conv ∧
         retiredPlain s t e rest .done
           (s.wr.offer s.now (.note e.cue.tag (if e.cue.payloadPresent then some p else none) s.now))) ∧
     (e.cue.action = .engine .closePage → s.wr.queue.length < 32 → s.wr.keeps = true →
       ∃ t, exec .closePage s = .next t ∧ t.chans = s.chans ∧ t.conv = s.conv ∧
         retiredTo s t e rest .done false
           { s.wr with queue := s.wr.queue ++ [.closeMarker {
               lane := e.lane, seq := e.seq, tag := e.cue.tag,
               report := e.cue.report, time := s.now, lateness := none }] } s.win.alert) ∧
     (e.cue.action = .engine .closePage → s.wr.queue.length = 32 →
       ∃ t, exec .closePage s = .next t ∧ t.chans = s.chans ∧ t.conv = s.conv ∧
         retiredRefused s t e rest .refusedQueueFull s.wr))

/-- Verbs a channel refuses leave it as it was; the refusal is reported whatever the report flag, and REFUSE is set (R5,
R6, R53, R62, R64, R69, R91): SET outside UNSET and STOPPED or with an illegal record, STAGE of illegal marks, FIRE
outside ARMED and PULSING, any verb but SET and SNAPSHOT in UNSET. The row is the dispatch of the Calendar's earliest
entry (log 4). -/
def Obligations.RefusedChannelVerbs : Prop :=
  ∀ (s : State) (e : Entry) (rest : List Entry) (ch : ChanId) (v : ChanVerb), s.dueNow e rest →
    e.cue.action = .channel ch v →
    (((∃ r, v = .set r) ∧ (s.chan ch).mode ≠ .unset ∧ (s.chan ch).mode ≠ .stopped) ∨
      (v ≠ .snapshot ∧ (∀ r, v ≠ .set r) ∧ (s.chan ch).mode = .unset) ∨
      (v = .fire ∧ (s.chan ch).mode ≠ .armed ∧ (s.chan ch).mode ≠ .pulsing) →
      ∃ t, exec (rowOf e.cue.action) s = .next t ∧ retiredRefused s t e rest .refusedState s.wr ∧
        onlyChannel s t ch (s.chan ch)) ∧
    (∀ r, v = .set r → ((s.chan ch).mode = .unset ∨ (s.chan ch).mode = .stopped) → legalSettings ch r = none →
      ∃ t, exec (rowOf e.cue.action) s = .next t ∧ retiredRefused s t e rest .refusedSettings s.wr ∧
        onlyChannel s t ch (s.chan ch)) ∧
    (∀ m st, v = .stage m → (s.chan ch).mode ≠ .unset → (s.chan ch).settings = some st →
      ((st.shape ≠ .oneShot ∧ st.wrapSource = .action) ∨ st.shape = .oneShot) → m.action.getD st.action = 0 →
      ∃ t, exec (rowOf e.cue.action) s = .next t ∧ retiredRefused s t e rest .refusedSettings s.wr ∧
        onlyChannel s t ch (s.chan ch))

/-- POWER_ON and POWER_OFF (R107, R109): from OFF the Converter warms up until 30 us after now, in ticks rounded up;
from any other state POWER_OFF empties it with a DROP of cause POWER_OFF for the conversion in flight and each request.
The row is the dispatch of the Calendar's earliest entry (log 4). -/
def Obligations.PowerCues : Prop :=
  ∀ (s : State) (e : Entry) (rest : List Entry), s.dueNow e rest → 0 < s.tb.divider →
    (e.cue.action = .converter .powerOn → s.conv.power = .off →
      ∃ t n, exec .powerOn s = .next t ∧ retiredPlain s t e rest .done s.wr ∧ t.chans = s.chans ∧
        t.conv = { s.conv with power := .warming, endTick := some (s.now.toNat + n) } ∧
        3000 ≤ n * s.tb.divider ∧ n * s.tb.divider < 3000 + s.tb.divider) ∧
    (e.cue.action = .converter .powerOn → s.conv.power ≠ .off →
      ∃ t, exec .powerOn s = .next t ∧ retiredPlain s t e rest .already s.wr ∧ t.chans = s.chans ∧ t.conv = s.conv) ∧
    (e.cue.action = .converter .powerOff → s.conv.power = .off →
      ∃ t, exec .powerOff s = .next t ∧ retiredPlain s t e rest .already s.wr ∧ t.chans = s.chans ∧ t.conv = s.conv) ∧
    (e.cue.action = .converter .powerOff → s.conv.power ≠ .off →
      let held : List ConvRequest := (s.conv.inFlight.map Conversion.request).toList ++ s.conv.queue
      ∃ t, exec .powerOff s = .next t ∧ t.chans = s.chans ∧
        retiredPlain s t e rest .done (held.foldl
          (fun w r => w.offer s.now (.drop r.input r.source .powerOff r.tag s.now)) s.wr) ∧
        t.conv = { s.conv with power := .off, current := s.conv.pendingRef.getD s.conv.current, pendingRef := none,
                               queue := [], inFlight := none, endTick := none })

/-- REFERENCE (R110, Table 5-5). The row is the dispatch of the Calendar's earliest entry (log 4). -/
def Obligations.ReferenceCue : Prop :=
  ∀ (s : State) (e : Entry) (rest : List Entry) (ref : Reference), s.dueNow e rest → 0 < s.tb.divider →
    e.cue.action = .converter (.reference ref) →
    (ref = s.conv.pendingRef.getD s.conv.current →
      ∃ t, exec .reference s = .next t ∧ retiredPlain s t e rest .already s.wr ∧ t.chans = s.chans ∧ t.conv = s.conv) ∧
    (ref ≠ s.conv.pendingRef.getD s.conv.current →
      ∃ t, exec .reference s = .next t ∧ retiredPlain s t e rest .done s.wr ∧ t.chans = s.chans ∧
        ((s.conv.power = .off ∨ s.conv.power = .warming) → t.conv = { s.conv with current := ref }) ∧
        ((s.conv.power = .ready ∨ s.conv.power = .settling) → ∃ n,
          t.conv = { s.conv with current := ref, power := .settling, endTick := some (s.now.toNat + n) } ∧
          2000 ≤ n * s.tb.divider ∧ n * s.tb.divider < 2000 + s.tb.divider) ∧
        (s.conv.power = .converting →
          t.conv = { s.conv with pendingRef := if s.conv.pendingRef = none then some ref else none }))

/-- CONVERT (R114): in OFF it is refused with REFUSED_CONVERTER_OFF; with room for every request they join the queue in
ascending input order with the cue's lane, sequence number and tag, and a READY Converter starts the oldest. With too
little room those that fit join, and each other one gives a DROP record of cause QUEUE_FULL before the report: the
outcome is PARTIAL, or REFUSED_QUEUE_FULL when none fits. The row is the dispatch of the Calendar's earliest entry (log
4). -/
def Obligations.ConvertCue : Prop :=
  ∀ (s : State) (e : Entry) (rest : List Entry) (mask : BitVec 10), s.dueNow e rest →
    e.cue.action = .converter (.convert mask) →
    let requests : List ConvRequest := ((List.finRange 10).filter fun k => mask.getLsbD k.val).map fun k =>
      { input := k, source := .cue e.lane e.seq, tag := e.cue.tag }
    let room : Nat := 8 - s.conv.queue.length
    let dropped : Writer := s.wr.offered s.now ((requests.drop room).map fun r =>
      .drop r.input r.source .queueFull r.tag s.now)
    (s.conv.power = .off →
      ∃ t, exec .convert s = .next t ∧ retiredRefused s t e rest .refusedConverterOff s.wr ∧ t.chans = s.chans ∧
        t.conv = s.conv) ∧
    (s.conv.power ≠ .off → s.conv.power ≠ .ready → s.conv.queue.length + requests.length ≤ 8 →
      ∃ t, exec .convert s = .next t ∧ retiredPlain s t e rest .done s.wr ∧ t.chans = s.chans ∧
        t.conv = { s.conv with queue := s.conv.queue ++ requests }) ∧
    (∀ r rs, s.conv.power = .ready → s.conv.queue = [] → 0 < s.tb.divider → requests = r :: rs →
      (r :: rs).length ≤ 8 →
      ∃ t n, exec .convert s = .next t ∧ retiredPlain s t e rest .done s.wr ∧ t.chans = s.chans ∧
        t.conv = { s.conv with
          power := .converting, queue := rs, endTick := some (s.now.toNat + n), samples := s.conv.samples + 1,
          inFlight := some { request := r, start := s.now, ref := s.conv.current, index := s.conv.samples } } ∧
        400 ≤ n * s.tb.divider ∧ n * s.tb.divider < 400 + s.tb.divider) ∧
    (s.conv.power ≠ .off → s.conv.power ≠ .ready → room < requests.length →
      ∃ t, exec .convert s = .next t ∧
        retiredRefused s t e rest (if room = 0 then .refusedQueueFull else .partly) dropped ∧ t.chans = s.chans ∧
        t.conv = { s.conv with queue := s.conv.queue ++ requests.take room }) ∧
    (∀ r rs, s.conv.power = .ready → s.conv.queue = [] → 0 < s.tb.divider → requests = r :: rs →
      8 < (r :: rs).length →
      ∃ t n, exec .convert s = .next t ∧ retiredRefused s t e rest .partly dropped ∧ t.chans = s.chans ∧
        t.conv = { s.conv with
          power := .converting, queue := rs.take 7, endTick := some (s.now.toNat + n), samples := s.conv.samples + 1,
          inFlight := some { request := r, start := s.now, ref := s.conv.current, index := s.conv.samples } } ∧
        400 ≤ n * s.tb.divider ∧ n * s.tb.divider < 400 + s.tb.divider)

/-- END (R12, R157): the cue is retired with DONE, counted against its lane and segment and reported when its report
flag is 1, and a drain with end cause END_CUE begins: the entries left are cancelled, each counted as retired, the heads
of the lanes too, and the channels stopped. The report stands before the LANE_EVENT CANCELLED records, lane 0 first
(R48), and the DROP records of cause SESSION_END (R120); that of these two the former come first is the model's choice
(log 5). The row is the dispatch of the Calendar's earliest entry (log 4). -/
def Obligations.EndCue : Prop :=
  ∀ (s : State) (e : Entry) (rest : List Entry), s.dueNow e rest → e.cue.action = .engine .endCue →
    s.eng.resetPending = false → ∃ t, exec .endCue s = .next t ∧
      t.eng = { s.eng with state := .draining, endCause := .endCue, loaderQuiet := false, pathComplete := false,
                           markerPlaced := false, converterIdle := s.conv.inFlight.isNone } ∧
      t.cal = [] ∧ (∀ ch : ChanId, t.chan ch = (s.chan ch).sessionStop) ∧
      (∀ i : LaneId, t.lane i = (s.laneRetired (e :: rest) i).stopped.cancelHead ∧
        (t.lane i).state ≠ .active ∧ (t.lane i).state ≠ .waiting ∧ (t.lane i).state ≠ .blocked ∧
        (t.lane i).acceptedHead = none ∧
        ((s.lane i).head = none ∨ (s.lane i).acceptedHead.isSome →
          (t.lane i).cuesRetired = (s.lane i).cuesRetired +
            BitVec.ofNat 32 (s.cancelledOf rest i + (if e.lane = i then 1 else 0)))) ∧
      t.wr = (if e.cue.report then s.wr.offer s.now (s.reportOf e .done) else s.wr).drained s.now (s.drainRecords rest) ∧
      t.conv.queue = [] ∧ t.conv.closing = some .sessionEnd ∧ t.conv.inFlight = s.conv.inFlight ∧
      t.tb = s.tb ∧ t.params = s.params ∧ t.links = s.links ∧ t.port = s.port ∧ t.win = s.win ∧ t.pins = s.pins

/-- LANE_HEAD_OFFER (R15, R16, R18, R39): a lane offers its accepted head in a state that offers it, due no later than
now plus the horizon; else the head stays. With a free entry for every offered head it is taken; with fewer, only the
one due first, among equal due times that of the lowest lane, and the others go on waiting. The head taken leaves the
lane and stands in the Calendar in Calendar order, with the late mark of PREPARING and ARMED; a late one in RUNNING
does so where an entry that comes before it is still to be handled (R18; else it is handled at once, LateCues). A lane
with no head, or with a held one, offers none. Calendar order (R14): due time, then lane number, then lane sequence
number. -/
def Obligations.HeadOffer : Prop :=
  (∀ (s : State) (i : LaneId) (h : Head) (c : Cue), s.free → s.takesCues = true →
    (s.lane i).head = some h → h.body = .accepted c →
    let e : Entry := { cue := c, lane := i, seq := h.seq, trailRef := h.trailRef,
                       lateMark := decide (s.eng.state ≠ .running ∧ c.due.toNat < s.now.toNat) }
    let offers : Prop := ((s.lane i).state = .active ∨ (s.lane i).state = .waiting ∨ (s.lane i).state = .ended ∨
        ((s.lane i).state = .blocked ∧ ∃ x xs, (s.lane i).trail = x :: xs ∧ x.address = h.trailRef)) ∧
      c.due.toNat ≤ s.now.toNat + s.params.horizon.toNat
    let comesFirst (j : LaneId) : Prop := ∃ hj cj, s.offeredHead j = some (hj, cj) ∧
      (cj.due.toNat < c.due.toNat ∨ (cj.due = c.due ∧ j < i))
    (offers → s.offeredHead i = some (h, c)) ∧
    (¬ offers → s.offeredHead i = none ∧ exec (.laneHeadOffer i) s = .next s) ∧
    (offers → s.cal.length + s.offeredCount ≤ 48 ∨ (s.cal.length < 48 ∧ ∀ j, ¬ comesFirst j) →
      (s.eng.state = .running → s.now.toNat ≤ c.due.toNat ∨ ∃ x ∈ s.cal, e.before x = false) →
      ∃ t, exec (.laneHeadOffer i) s = .next t ∧
        t.cal.Perm (e :: s.cal) ∧ (s.calendarInOrder → t.calendarInOrder) ∧
        t = { s with cal := t.cal,
                     loader := { s.loader with lanes := s.loader.lanes.set i.val { s.lane i with head := none } i.isLt } }) ∧
    (48 ≤ s.cal.length ∨ (48 < s.cal.length + s.offeredCount ∧ ∃ j, comesFirst j) →
      exec (.laneHeadOffer i) s = .next s)) ∧
  (∀ (s : State) (i : LaneId), ((s.lane i).head = none ∨ ∃ h o, (s.lane i).head = some h ∧ h.body = .held o) →
    s.offeredHead i = none ∧ exec (.laneHeadOffer i) s = .next s) ∧
  (∀ a b : Entry, a.before b = true ↔ a.cue.due.toNat < b.cue.due.toNat ∨ (a.cue.due = b.cue.due ∧
    (a.lane < b.lane ∨ (a.lane = b.lane ∧ a.seq.toNat < b.seq.toNat))))

/-! ## Links and the Converter -/

/-- FIRE_LINK_DELIVERY (R101): taken as a trigger by an ARMED ONE_SHOT channel, as a retrigger by a PULSING one, ignored
by any other; no record and no alert. CONVERT_LINK_REQUEST (R115, R121): while the closing cause is present, in OFF, or
at a full queue the request gives a DROP with that cause; else it joins the queue with the channel and event kind as its
source. No delivery is lost on its way (R116, R103): of all commands only the two link rows, a tick and the resets take
any out; a tick leaves none under way, and after an abort or a fault it gives the DROP record, of cause FAULT, of a
request that was; deliveries are under way only while the session runs or, in the tick of its stop, until its end
summary begins, and in a drain no conversion request is once the end marker is placed, so none is left at the next
PREPARE. Which delivery a row takes, that deliveries can be under way within a tick and that the summary waits for them
are the model's reading (log 21), what a tick takes is its choice (log 3). -/
def Obligations.LinksDelivered : Prop :=
  (∀ (s : State) (a b : ChanId) (d : LinkDelivery) (rest : List LinkDelivery), s.free → s.links = d :: rest →
     d.source = a → d.link = .fire b → ∃ t, exec (.fireLinkDelivery a b) s = .next t ∧
       (∀ st, (s.chan b).settings = some st → st.shape = .oneShot → (s.chan b).mode = .armed →
         t.chan b = { (s.chan b).takeMarks with
           mode := .pulsing, counter := 0, phase := 0, restart := some s.now,
           output := if st.polarity = .activeHigh then .high else .low }) ∧
       (∀ st, (s.chan b).settings = some st → st.shape = .oneShot → (s.chan b).mode = .pulsing →
         t.chan b = if st.retrigger = .extend then
           { (s.chan b).takeMarks with counter := 0, phase := 0, restart := some s.now } else s.chan b) ∧
       ((s.chan b).mode ≠ .armed → (s.chan b).mode ≠ .pulsing → t.chan b = s.chan b) ∧
       t = { s with links := rest, chans := s.chans.set b.val (t.chan b) b.isLt }) ∧
  (∀ (s : State) (a : ChanId) (d : LinkDelivery) (rest : List LinkDelivery) (k : InputId), s.free →
     s.links = d :: rest → d.source = a → d.link = .convert k →
     let r : ConvRequest := { input := k, source := .link a d.kind, tag := d.tag }
     (s.conv.closing = some .sessionEnd →
       exec (.convertLinkRequest a) s =
         .next { s with links := rest, wr := s.wr.offer s.now (.drop k r.source .sessionEnd d.tag s.now) }) ∧
     (s.conv.closing = some .fault →
       exec (.convertLinkRequest a) s =
         .next { s with links := rest, wr := s.wr.offer s.now (.drop k r.source .fault d.tag s.now) }) ∧
     (s.conv.closing = none → s.conv.power = .off →
       exec (.convertLinkRequest a) s =
         .next { s with links := rest, wr := s.wr.offer s.now (.drop k r.source .converterOff d.tag s.now) }) ∧
     (s.conv.closing = none → s.conv.power ≠ .off → s.conv.queue.length = 8 →
       exec (.convertLinkRequest a) s =
         .next { s with links := rest, wr := s.wr.offer s.now (.drop k r.source .queueFull d.tag s.now) }) ∧
     (s.conv.closing = none → s.conv.power ≠ .off → s.conv.power ≠ .ready → s.conv.queue.length < 8 →
       exec (.convertLinkRequest a) s =
         .next { s with links := rest, conv := { s.conv with queue := s.conv.queue ++ [r] } }) ∧
     (s.conv.closing = none → s.conv.power = .ready → s.conv.queue = [] → 0 < s.tb.divider →
       ∃ n, exec (.convertLinkRequest a) s = .next { s with links := rest, conv := { s.conv with
           power := .converting, endTick := some (s.now.toNat + n), samples := s.conv.samples + 1,
           inFlight := some { request := r, start := s.now, ref := s.conv.current, index := s.conv.samples } } } ∧
         400 ≤ n * s.tb.divider ∧ n * s.tb.divider < 400 + s.tb.divider)) ∧
  (∀ (c : Instr) (s t : State), exec c s = .next t → (∀ a b, c ≠ .fireLinkDelivery a b) →
     (∀ a, c ≠ .convertLinkRequest a) → c ≠ .timebaseTick → c ≠ .deviceReset → c ≠ .engineReset →
     ∃ new, t.links = s.links ++ new ∧ ((∀ ch level, c ≠ .tickArrival ch level) → new = [])) ∧
  (∀ s t : State, s.free → (∀ d ∈ s.links, d.link ≠ .none) → exec .timebaseTick s = .next t → t.links = []) ∧
  (∀ (s : State) (d : LinkDelivery) (k : InputId), s.free → s.eng.resetPending = false →
     (s.eng.state = .ended ∨ s.eng.state = .faulted) → s.tb.runs = false → s.conv.power = .off →
     s.conv.closing = some .fault → s.links = [d] → d.link = .convert k →
     ∃ t, exec .timebaseTick s = .next t ∧ t.links = [] ∧
       t.wr = s.wr.offer s.now (.drop k (.link d.source d.kind) .fault d.tag s.now)) ∧
  (∀ s t : State, s.timebaseHeld → s.channelsRest → s.linksTaken → step s = .next t → t.linksTaken)

/-- WARM_UP_END and SETTLING_END (R108, R111): at the end tick the Converter is READY, and starts its oldest request if
one waits; before it nothing happens. CONVERSION_END (R113, R120): the SAMPLE record of the conversion is produced with
its free value (assumption log 7); then a pending reference settles, or the next request starts, or in a drain the
Converter goes OFF and is idle. -/
def Obligations.TimedOperationsEnd : Prop :=
  (∀ (s : State) (n : Nat), s.free → s.conv.endTick = some n →
     (n ≤ s.now.toNat → s.conv.queue = [] →
       (s.conv.power = .warming →
         exec .warmUpEnd s = .next { s with conv := { s.conv with power := .ready, endTick := none } }) ∧
       (s.conv.power = .settling →
         exec .settlingEnd s = .next { s with conv := { s.conv with power := .ready, endTick := none } })) ∧
     (∀ r rs, n ≤ s.now.toNat → s.conv.queue = r :: rs → 0 < s.tb.divider → ∃ m,
       400 ≤ m * s.tb.divider ∧ m * s.tb.divider < 400 + s.tb.divider ∧
       let started : State := { s with conv := { s.conv with
         power := .converting, queue := rs, samples := s.conv.samples + 1, endTick := some (s.now.toNat + m),
         inFlight := some { request := r, start := s.now, ref := s.conv.current, index := s.conv.samples } } }
       (s.conv.power = .warming → exec .warmUpEnd s = .next started) ∧
       (s.conv.power = .settling → exec .settlingEnd s = .next started)) ∧
     (s.now.toNat < n → exec .warmUpEnd s = .next s ∧ exec .settlingEnd s = .next s ∧ exec .conversionEnd s = .next s)) ∧
  (∀ (s : State) (n : Nat) (v : Conversion), s.free → s.conv.endTick = some n → n ≤ s.now.toNat →
     0 < s.tb.divider → s.conv.power = .converting → s.conv.inFlight = some v → ∃ t, exec .conversionEnd s = .next t ∧
       t.wr = s.wr.offer s.now (.sample v.request.input v.request.source
         (Config.conversionValue v.index v.request.input v.ref) v.request.tag v.start) ∧
       (s.conv.closing = none → s.conv.pendingRef = none → s.conv.queue = [] →
         t.conv = { s.conv with power := .ready, endTick := none, inFlight := none }) ∧
       (∀ r rs, s.conv.closing = none → s.conv.pendingRef = none → s.conv.queue = r :: rs → ∃ m,
         t.conv = { s.conv with
           power := .converting, queue := rs, samples := s.conv.samples + 1, endTick := some (s.now.toNat + m),
           inFlight := some { request := r, start := s.now, ref := s.conv.current, index := s.conv.samples } } ∧
         400 ≤ m * s.tb.divider ∧ m * s.tb.divider < 400 + s.tb.divider) ∧
       (∀ ref, s.conv.closing = none → s.conv.pendingRef = some ref → ∃ m,
         t.conv = { s.conv with current := ref, pendingRef := none, power := .settling, inFlight := none,
                                endTick := some (s.now.toNat + m) } ∧
         2000 ≤ m * s.tb.divider ∧ m * s.tb.divider < 2000 + s.tb.divider) ∧
       (s.conv.closing ≠ none → t.conv.power = .off ∧ t.conv.inFlight = none ∧ t.conv.queue = []) ∧
       (s.conv.closing ≠ none → s.eng.state = .draining → t.eng = { s.eng with converterIdle := true }) ∧
       (s.eng.state ≠ .draining → t.eng = s.eng) ∧
       t = { s with conv := t.conv, wr := t.wr, eng := t.eng })

/-! ## The Memory Port -/

/-- REQUEST_PRESENT by Engine Control (R149, R164, R169): the reads of the control block, without a window check while
no window is in force, and the three writes of the summary; while a reset is pending nothing is presented (R176). By the
Loader (R29, R30, R33, R44), for the first lane in rotation with an access pending, from which the rotation goes on: a
status write of a complete oldest segment, a header read, of a WAITING lane for a reread request, and a cue read, which
at the limit of the sequence counter is not issued and faults the lane; in a drain only status writes (R48). By the
Result Writer (R128, R129, R130, R135, R137): the record at the head of the queue, at the page's next free offset, the
next 64 bytes of the slot table, the REJECTED, FILLING and CLOSED slot entries and the page header. A request outside
the window is answered OUTSIDE_WINDOW at once (R169): BAD_NEXT for the Loader's header read (Table 2-4), a failed result
path for the writer's record write (R139). That a CLOSED entry carries reject reason none is the model's reading (log
37). -/
def Obligations.RequestsPresented : Prop :=
  (∀ (s : State), s.free → s.port.engine = .none →
     (s.eng.resetPending = false → s.eng.task = .readFirst → s.port.window = none →
       exec (.requestPresent .engine) s = .next { s with port := { s.port with
         engine := .waiting { addr := s.eng.cba, len := 64, write := false, data := [] } } }) ∧
     (∀ first, s.eng.resetPending = false → s.eng.task = .readSecond first → s.eng.aborting = false →
       s.port.window = none →
       exec (.requestPresent .engine) s = .next { s with port := { s.port with
         engine := .waiting { addr := s.eng.cba + 64, len := 64, write := false, data := [] } } }) ∧
     (∀ k bytes w, s.eng.resetPending = false → s.eng.task = .summary k bytes → s.port.window = some w →
       let rq : Request := match k with
         | 0 => { addr := s.eng.cba + 0x80, len := 64, write := true, data := bytes.take 64 }
         | 1 => { addr := s.eng.cba + 0xC0, len := 60, write := true, data := (bytes.drop 64).take 60 }
         | 2 => { addr := s.eng.cba + 0xFC, len := 4, write := true, data := bytes.drop 124 }
       w.covers rq.addr rq.len →
       exec (.requestPresent .engine) s = .next { s with port := { s.port with engine := .waiting rq } }) ∧
     (s.eng.resetPending = true → ∀ r, exec (.requestPresent r) s = .next s)) ∧
  (∀ (s : State) (w : Window) (n : LaneId), s.free → s.eng.resetPending = false →
     s.port.loader = .none → s.loader.access = none → s.port.window = some w →
     let i := s.loader.nextLane + n
     let issued (kind : LaneAccessKind) (segment : Word) (rq : Request) : State := { s with
       loader := { s.loader with nextLane := i + 1, access := some { lane := i, kind := kind, segment := segment } }
       port := { s.port with loader := .waiting rq } }
     (s.takesCues = true → (∀ m, m < n → (s.lane (s.loader.nextLane + m)).pendingAccess false = none) →
       (∀ x xs f, (s.lane i).trail = x :: xs → x.finish = some f → x.retired = f.fill →
         ((s.lane i).state = .active ∨ (s.lane i).state = .waiting ∨ (s.lane i).state = .blocked ∨
           (s.lane i).state = .ended) → w.covers (x.address + 8) 4 →
         exec (.requestPresent .loader) s =
           .next (issued .status x.address { addr := x.address + 8, len := 4, write := true, data := [1, 0, 0, 0] })) ∧
       ((s.lane i).oldestComplete = false →
         (((s.lane i).state = .active ∧ (s.lane i).fetchIndex = (s.lane i).knownFill ∧ (s.lane i).finish = none) ∨
           ((s.lane i).state = .waiting ∧ (s.lane i).reread ≠ .absent) →
           (w.covers (s.lane i).current 32 →
             exec (.requestPresent .loader) s = .next (issued .header (s.lane i).current
               { addr := (s.lane i).current, len := 32, write := false, data := [] })) ∧
           (¬ w.covers (s.lane i).current 32 →
             ∃ t, exec (.requestPresent .loader) s = .next t ∧ (t.lane i).state = .faulted ∧ t.port = s.port ∧
               t.wr = s.wr.offer s.now (.laneEvent i (.fault .badNext) (s.lane i).current
                 (if (s.lane i).acceptedHead.isSome then 1 else 0) s.now) ∧
               t.win = { s.win with alert := s.win.alert ||| 0x10 })) ∧
         ((s.lane i).state = .active → (s.lane i).head = none →
           (match (s.lane i).finish with
             | none => (s.lane i).fetchIndex < (s.lane i).knownFill
             | some f => (s.lane i).fetchIndex < f.fill) →
           (∀ a, a = (s.lane i).current + BitVec.ofNat 32 (32 + 32 * (s.lane i).fetchIndex) →
             (s.lane i).seqCounter ≠ BitVec.allOnes 32 → w.covers a 32 →
             exec (.requestPresent .loader) s = .next (issued .cue (s.lane i).current
               { addr := a, len := 32, write := false, data := [] })) ∧
           ((s.lane i).seqCounter = BitVec.allOnes 32 →
             ∃ t, exec (.requestPresent .loader) s = .next t ∧ (t.lane i).state = .faulted ∧ t.port = s.port ∧
               t.wr = s.wr.offer s.now (.laneEvent i (.fault .sequenceLimit) (s.lane i).current 0 s.now) ∧
               t.win = { s.win with alert := s.win.alert ||| 0x10 })))) ∧
     (s.eng.state = .draining → (∀ m, m < n → (s.lane (s.loader.nextLane + m)).pendingAccess true ≠ some .status) →
       ∀ x xs f, (s.lane i).trail = x :: xs → x.finish = some f → x.retired = f.fill → (s.lane i).state = .stopped →
         w.covers (x.address + 8) 4 →
         exec (.requestPresent .loader) s =
           .next (issued .status x.address { addr := x.address + 8, len := 4, write := true, data := [1, 0, 0, 0] }))) ∧
  (∀ (s : State) (w : Window), s.free → s.eng.resetPending = false → s.port.writer = .none → s.port.window = some w →
     (s.eng.state = .armed ∨ s.eng.state = .running ∨ s.eng.state = .draining ∨
       (s.eng.state = .preparing ∧ s.eng.checked = true ∧ s.eng.aborting = false) ∨
       (s.eng.state = .faulted ∧ s.wr.flushing = true) ∨ (s.eng.state = .ended ∧ s.wr.aborting = true)) →
     let presented (task : WriterTask) (rq : Request) : State := { s with
       wr := { s.wr with task := task }, port := { s.port with writer := .waiting rq } }
     let entryWrite (slot : SlotId) (data : List Byte) : Request :=
       { addr := s.eng.cba + BitVec.ofNat 32 (0x100 + 16 * slot.val), len := 16, write := true, data := data }
     (∀ p r rest, s.wr.task = .none → s.wr.state = .opened → s.wr.page = some p → s.wr.queue = .record r :: rest →
       let a := p.address + BitVec.ofNat 32 p.nextFree
       (w.covers a (recLength r) →
         exec (.requestPresent .writer) s = .next (presented (.record (recLength r))
           { addr := a, len := recLength r, write := true, data := recBytes r })) ∧
       (¬ w.covers a (recLength r) → s.eng.state ≠ .faulted → s.eng.state ≠ .ended →
         ∃ t, exec (.requestPresent .writer) s = .next t ∧ t.eng.state = .faulted ∧
           t.eng.faultCode = some .resultPathError ∧ t.eng.faultAddr = a ∧ t.wr.state = .done ∧
           t.port.writer = .none)) ∧
     (∀ es, s.wr.task = .table es → w.covers (s.eng.cba + BitVec.ofNat 32 (0x100 + 16 * es.length)) 64 →
       exec (.requestPresent .writer) s = .next (presented (.table es)
         { addr := s.eng.cba + BitVec.ofNat 32 (0x100 + 16 * es.length), len := 64, write := false, data := [] })) ∧
     (∀ x todo good, s.wr.task = .reject (x :: todo) good →
       let reason : Byte := match x.reason with
         | .badAlign => 1
         | .badSize => 2
         | .outsideWindow => 3
       let rq := entryWrite x.slot (slotBytes 4 reason 0 x.entry.address x.entry.size 0)
       w.covers rq.addr 16 → exec (.requestPresent .writer) s = .next (presented (.reject (x :: todo) good) rq)) ∧
     (∀ x, s.wr.task = .fill x →
       let rq := entryWrite x.slot (slotBytes 2 0 0 x.entry.address x.entry.size 0)
       w.covers rq.addr 16 → exec (.requestPresent .writer) s = .next (presented (.fill x) rq)) ∧
     (∀ p c, s.wr.page = some p → s.wr.task = .header c → w.covers p.address 32 →
       exec (.requestPresent .writer) s = .next (presented (.header c)
         { addr := p.address, len := 32, write := true, data := pageHeaderBytes s.eng.session p c })) ∧
     (∀ p c, s.wr.page = some p → s.wr.task = .closed c →
       let rq := entryWrite p.slot (slotBytes 3 0 (BitVec.ofNat 16 p.records) p.address p.size c.seq)
       w.covers rq.addr 16 → exec (.requestPresent .writer) s = .next (presented (.closed c) rq)))

/-- The window check (R169): after any command, a request that has newly come to wait lies in the window in force. -/
def Obligations.WaitingRequestsLieInWindow : Prop :=
  ∀ (c : Instr) (s t : State) (r : Requester) (rq : Request) (w : Window), exec c s = .next t →
    t.port.request r = .waiting rq → s.port.request r ≠ .waiting rq → s.port.window = some w →
    w.base.toNat ≤ rq.addr.toNat ∧ rq.addr.toNat + rq.len ≤ w.limit.toNat

/-- GRANT (R170, R171): the path free, no quiet interval and no reset pending, the arbiter grants Engine Control first,
then a writer with 24 items or more, then the only one, else the one not last served; the request is outstanding with
its issue number and grant time and holds the path. BUS_ACCEPT frees the request path and changes nothing else: the
transaction goes on (R171). Readings of the reference clock never go back, and BUS_ACCEPT with the path free changes
nothing (the model's choices, logs 8 and 22). -/
def Obligations.GrantArbitrates : Prop :=
  (∀ (s : State) (n : Nat), s.free → s.port.path = none → s.port.quiet = none → s.eng.resetPending = false →
     (∀ rq, s.port.engine = .waiting rq →
       exec (.grant n) s = .next { s with
         port := { s.port with engine := .outstanding rq s.port.engineIssue (max s.pins.refClock n),
                               engineIssue := s.port.engineIssue + 1, path := some .engine }
         pins := { s.pins with refClock := max s.pins.refClock n } }) ∧
     (∀ rq, s.port.engine.isWaiting = false → s.port.writer = .waiting rq →
       (24 ≤ s.wr.queue.length ∨ s.port.loader.isWaiting = false ∨ s.port.lastServed = .loader) →
       exec (.grant n) s = .next { s with
         port := { s.port with writer := .outstanding rq s.port.writerIssue (max s.pins.refClock n),
                               writerIssue := s.port.writerIssue + 1, path := some .writer, lastServed := .writer }
         pins := { s.pins with refClock := max s.pins.refClock n } }) ∧
     (∀ rq, s.port.engine.isWaiting = false → s.port.loader = .waiting rq →
       (s.port.writer.isWaiting = false ∨ (s.wr.queue.length < 24 ∧ s.port.lastServed = .writer)) →
       exec (.grant n) s = .next { s with
         port := { s.port with loader := .outstanding rq s.port.loaderIssue (max s.pins.refClock n),
                               loaderIssue := s.port.loaderIssue + 1, path := some .loader, lastServed := .loader }
         pins := { s.pins with refClock := max s.pins.refClock n } })) ∧
  (∀ s : State, s.free → exec .busAccept s = .next { s with port := { s.port with path := none } })

/-- RESPONSE (R172): one that names an outstanding transaction and its issue number ends it, so the requester has no
request left; one that matches nothing is discarded. TIMEOUT (R173): 40 microseconds (4000 periods of 10 ns) after its
grant a transaction ends and frees a path it still holds, and its requester is answered ERROR: the state is that of a
response with ERROR at this clock reading. A cue read of an ACTIVE lane or a header read of an ACTIVE or WAITING lane
that ends so faults its lane with READ_ERROR (R30, R35), a status write with WRITE_ERROR (R44), and an accepted head of
the lane is cancelled and held (R46); before that time nothing happens. The readings of the reference clock and the path
freed by an early answer are the model's (logs 8 and 22). -/
def Obligations.ResponsesAndTimeouts : Prop :=
  (∀ (s : State) (r : Requester) (k : Byte) (ok : Bool) (d : BusData), s.free → s.port.quiet = none →
     (∀ rq g, s.port.request r = .outstanding rq k g →
       ∃ t, exec (.response r k ok d) s = .next t ∧ t.port.request r = .none ∧
         (s.port.path = some r → t.port.path = none) ∧ (s.port.path ≠ some r → t.port.path = s.port.path)) ∧
     ((∀ rq g, s.port.request r ≠ .outstanding rq k g) → exec (.response r k ok d) s = .next s)) ∧
  (∀ (s : State) (r : Requester) (rq : Request) (k : Byte) (g n : Nat), s.free →
     s.port.request r = .outstanding rq k g →
     (g + 4000 ≤ max s.pins.refClock n → s.port.quiet = none → ∀ d, exec (.timeout r n) s =
       exec (.response r k false d) { s with pins := { s.pins with refClock := max s.pins.refClock n } }) ∧
     (g + 4000 ≤ max s.pins.refClock n → ∃ t, exec (.timeout r n) s = .next t ∧ t.port.request r = .none ∧
       (s.port.path = some r → t.port.path = none) ∧ t.pins.refClock = max s.pins.refClock n ∧
       (∀ i kind seg, r = .loader → s.loader.access = some { lane := i, kind := kind, segment := seg } →
         s.takesCues = true →
         ((kind = .cue ∧ (s.lane i).state = .active) ∨
           (kind = .header ∧ ((s.lane i).state = .active ∨ (s.lane i).state = .waiting)) ∨
           (kind = .status ∧ (s.lane i).state ≠ .off ∧ (s.lane i).state ≠ .faulted)) →
         let cause : LaneFaultCause := if kind = .status then .writeError else .readError
         (t.lane i).state = .faulted ∧ t.win = { s.win with alert := s.win.alert ||| 0x10 } ∧
         t.wr = s.wr.offer s.now
           (.laneEvent i (.fault cause) seg (if (s.lane i).acceptedHead.isSome then 1 else 0) s.now) ∧
         ((s.lane i).acceptedHead = none →
           t.lane i = { s.lane i with state := .faulted, pendingNext := none, reread := .absent }) ∧
         (∀ h c, (s.lane i).head = some h → h.body = .accepted c → (s.lane i).cuesRetired ≠ h.seq →
           t.lane i = { s.lane i with state := .faulted, pendingNext := none, reread := .absent,
                                      head := some { h with body := .held .cancelled } }) ∧
         (∀ h c, (s.lane i).head = some h → h.body = .accepted c → (s.lane i).cuesRetired = h.seq →
           (t.lane i).head = none ∧ (t.lane i).cuesRetired = (s.lane i).cuesRetired + 1) ∧
         t.cal = s.cal ∧ t.chans = s.chans ∧ t.conv = s.conv ∧ t.eng = s.eng ∧ t.tb = s.tb)) ∧
     (max s.pins.refClock n < g + 4000 → exec (.timeout r n) s = .next s))

/-! ## Answers to the Loader (R30 to R32, R36, R44) -/

/-- A cue read answered OKAY on an ACTIVE lane, in the initial fetch, ARMED or RUNNING (R30 to R32): it takes the
sequence number and raises the counts, that of the newest trail entry among them; an accepted cue becomes the head and
the last due; one due before the last due is reported as ORDER and a cue that is not well formed as MALFORMED, with code
FFH, the bytes 06H, 07H as found and the tag field (R184), both with REFUSE, and is held; when every earlier cue has
retired a held head retires at once (R43). Then, below the final fill of a segment seen finished and in one not seen
finished the lane stays ACTIVE; at the final fill it moves on (R38): ENDED when next is 0; BLOCKED when the trail is
full; else into the next segment, or to BAD_NEXT when that stands in the trail already. A cue (Tables 9-9 to 9-11): when
its bytes are well formed (R2), and what each of its fields and parameters is then, with its action code (R184). -/
def Obligations.CueFetched : Prop :=
  (∀ (s : State) (i : LaneId) (seg : Word) (rq : Request) (k : Byte) (g : Nat) (d : BusData), s.free →
    s.port.quiet = none → s.eng.resetPending = false → s.takesCues = true →
    s.port.loader = .outstanding rq k g → s.loader.access = some { lane := i, kind := .cue, segment := seg } →
    (s.lane i).state = .active → (s.lane i).head = none →
    let fetched : Lane := { s.lane i with
      seqCounter := (s.lane i).seqCounter + 1, fetchIndex := (s.lane i).fetchIndex + 1,
      trail := TrailEntry.atNewest (fun x => { x with fetched := x.fetched + 1 }) (s.lane i).trail }
    let held (o : HeldOutcome) : Lane :=
      if (s.lane i).cuesRetired = (s.lane i).seqCounter then
        { fetched with
          cuesRetired := (s.lane i).cuesRetired + 1,
          trail := fetched.trail.map fun x => if x.address = (s.lane i).current then { x with retired := x.retired + 1 } else x }
      else { fetched with
        head := some { seq := (s.lane i).seqCounter, trailRef := (s.lane i).current, body := .held o } }
    ∃ (t : State) (l : Lane) (w : Writer) (alert : Byte), exec (.response .loader k true d) s = .next t ∧
      (∀ c, readCue d = some c →
        ((s.lane i).lastDue.toNat ≤ c.due.toNat → w = s.wr ∧ alert = s.win.alert ∧
          l = { fetched with
            lastDue := c.due,
            head := some { seq := (s.lane i).seqCounter, trailRef := (s.lane i).current, body := .accepted c } }) ∧
        (c.due.toNat < (s.lane i).lastDue.toNat → l = held .order ∧ alert = s.win.alert ||| 0x08 ∧
          w = s.wr.offer s.now (.cueReport {
            lane := i, seq := (s.lane i).seqCounter, code := c.action.code, outcome := .order, time := s.now,
            detail := 0, tag := c.tag }))) ∧
      (readCue d = none → l = held .malformed ∧ alert = s.win.alert ||| 0x08 ∧
        w = s.wr.offer s.now (.cueReport {
          lane := i, seq := (s.lane i).seqCounter, code := 0xFF, outcome := .malformed, time := s.now,
          detail := d.extractLsb' 48 16, tag := d.extractLsb' 64 16 })) ∧
      (let becomes (l' : Lane) : Prop := t.lane i = l' ∧ t.wr = w ∧ t.win = { s.win with alert := alert }
       ((s.lane i).finish = none → becomes l) ∧
       (∀ f, (s.lane i).finish = some f →
         ((s.lane i).fetchIndex + 1 ≠ f.fill → becomes l) ∧
         ((s.lane i).fetchIndex + 1 = f.fill →
           (f.next = 0 → becomes { l with state := .ended, reread := .absent }) ∧
           (f.next ≠ 0 → 4 ≤ l.trail.length →
             becomes { l with state := .blocked, pendingNext := some f.next, reread := .absent }) ∧
           (f.next ≠ 0 → l.trail.length < 4 → (∀ x ∈ l.trail, x.address ≠ f.next) → becomes (l.entered f.next)) ∧
           (f.next ≠ 0 → l.trail.length < 4 → (∃ x ∈ l.trail, x.address = f.next) →
             (t.lane i).state = .faulted ∧ t.win = { s.win with alert := alert ||| 0x10 } ∧
             t.wr = w.offer s.now (.laneEvent i (.fault .badNext) (s.lane i).current
               (if l.acceptedHead.isSome then 1 else 0) s.now))))) ∧
      t.cal = s.cal ∧ t.chans = s.chans ∧ t.conv = s.conv ∧ t.eng = s.eng ∧ t.tb = s.tb ∧ t.pins = s.pins) ∧
  (∀ d : BusData,
     let target := (d.extractLsb' (8 * 0x06) 8).toNat
     let verb := (d.extractLsb' (8 * 0x07) 8).toNat
     let payload := d.getLsbD (8 * 0x0A + 2)
     let params : BitVec 160 := d.extractLsb' (8 * 0x0C) 160
     let hasP := params.getLsbD 0
     let hasA := params.getLsbD 1
     ((∃ c, readCue d = some c) ↔
       d.extractLsb' (8 * 0x0A + 3) 13 = 0 ∧ (payload = true → target = 17 ∧ verb = 1) ∧
       ((target < 16 ∧ verb = 1 ∧ params.extractLsb' (8 * 0x12) 16 = 0) ∨
        (target < 16 ∧ 2 ≤ verb ∧ verb ≤ 8 ∧ verb ≠ 6 ∧ params = 0) ∨
        (target < 16 ∧ verb = 6 ∧ params.extractLsb' 2 14 = 0 ∧ params.extractLsb' (8 * 0x06) 112 = 0 ∧
          (hasP = true ∨ hasA = true) ∧ (hasP = false → params.extractLsb' (8 * 0x02) 16 = 0) ∧
          (hasA = false → params.extractLsb' (8 * 0x04) 16 = 0)) ∨
        (target = 16 ∧ (verb = 1 ∨ verb = 2) ∧ params = 0) ∨ (target = 16 ∧ verb = 3 ∧ (params = 0 ∨ params = 1)) ∨
        (target = 16 ∧ verb = 4 ∧ params ≠ 0 ∧ params.toNat < 2 ^ 10) ∨
        (target = 17 ∧ verb = 1 ∧ params.toNat < 2 ^ 128 ∧ (payload = false → params = 0)) ∨
        (target = 17 ∧ (verb = 2 ∨ verb = 3) ∧ params = 0))) ∧
     (∀ c, readCue d = some c →
       c.due = d.extractLsb' 0 48 ∧ c.tag = d.extractLsb' (8 * 0x08) 16 ∧
       (c.late = .skip ↔ d.getLsbD (8 * 0x0A) = true) ∧ c.report = d.getLsbD (8 * 0x0A + 1) ∧ c.payloadPresent = payload ∧
       c.action.code.toNat = (if target < 16 then 8 * target else 0x80 + 8 * (target - 16)) + verb - 1 ∧
       (match c.action with
        | .channel ch v => target = ch.val ∧ (match v with
          | .set r => verb = 1 ∧ r = params
          | .start => verb = 2
          | .stop => verb = 3
          | .pause => verb = 4
          | .resume => verb = 5
          | .stage m => verb = 6 ∧ m.period = (if hasP then some (params.extractLsb' (8 * 0x02) 16) else none) ∧
              m.action = (if hasA then some (params.extractLsb' (8 * 0x04) 16) else none)
          | .fire => verb = 7
          | .snapshot => verb = 8)
        | .converter v => target = 16 ∧ (match v with
          | .powerOn => verb = 1
          | .powerOff => verb = 2
          | .reference ref => verb = 3 ∧ params.toNat = (match ref with
            | .supply => 0 | .vrefPin => 1)
          | .convert mask => verb = 4 ∧ mask.toNat = params.toNat)
        | .engine v => target = 17 ∧ (match v with
          | .note p => verb = 1 ∧ p.toNat = params.toNat
          | .closePage => verb = 2
          | .endCue => verb = 3))))

/-- A header read answered OKAY on an ACTIVE or WAITING lane, in the initial fetch, ARMED or RUNNING (R36): a fill above
63 or below the known fill faults the lane; a larger fill makes it ACTIVE; an unfinished header with nothing new makes
it WAITING, the reread request that caused the read gone, a kept one in its place (R34). A finished header: a next field
that is not 0 and names no whole aligned segment in the window faults the lane with BAD_NEXT; else the fill and the next
are kept, and with every cue fetched the lane moves on (R38): ENDED when next is 0; BLOCKED when the trail is full; else
into the next segment, or to BAD_NEXT when that stands in the trail already. A status write answered OKAY (R44, R45):
the oldest trail entry goes; the last entry of an ENDED lane gives LANE_EVENT ENDED with the fetched count, and LANE; a
BLOCKED lane enters its pending next, or faults with BAD_NEXT when it stands in the trail (R38), with the address of the
current segment (the model's reading, log 30). -/
def Obligations.HeaderReadAndStatusWrite : Prop :=
  (∀ (s : State) (i : LaneId) (seg : Word) (rq : Request) (k : Byte) (g : Nat) (d : BusData), s.free →
     s.port.quiet = none → s.eng.resetPending = false → s.takesCues = true →
     s.port.loader = .outstanding rq k g → s.loader.access = some { lane := i, kind := .header, segment := seg } →
     ((s.lane i).state = .active ∨ (s.lane i).state = .waiting) →
     let fill := (d.extractLsb' 0 8).toNat
     let next : Word := d.extractLsb' 32 32
     let good : Prop := next = 0 ∨ (next.toNat % 2048 = 0 ∧
       ∃ w, s.port.window = some w ∧ w.base.toNat ≤ next.toNat ∧ next.toNat + 2048 ≤ w.limit.toNat)
     ∃ t, exec (.response .loader k true d) s = .next t ∧
       (let faulted (cause : LaneFaultCause) : Prop :=
          (t.lane i).state = .faulted ∧ t.win = { s.win with alert := s.win.alert ||| 0x10 } ∧
          t.wr = s.wr.offer s.now (.laneEvent i (.fault cause) (s.lane i).current
            (if (s.lane i).acceptedHead.isSome then 1 else 0) s.now)
        (63 < fill → faulted .fillRange) ∧
        (fill ≤ 63 → fill < (s.lane i).knownFill → faulted .fillBackwards) ∧
        (fill ≤ 63 → d.getLsbD 8 = false → (s.lane i).knownFill < fill →
          t.lane i = { s.lane i with state := .active, knownFill := fill, reread := .absent } ∧ t.wr = s.wr) ∧
        (d.getLsbD 8 = false → fill = (s.lane i).knownFill → fill ≤ 63 →
          t.lane i = { s.lane i with
            state := .waiting, reread := if (s.lane i).reread = .kept then .present else .absent } ∧
          t.wr = s.wr ∧ t.win = s.win) ∧
        (fill ≤ 63 → (s.lane i).knownFill ≤ fill → d.getLsbD 8 = true → ¬ good → faulted .badNext) ∧
        (fill ≤ 63 → (s.lane i).knownFill ≤ fill → d.getLsbD 8 = true → good → (s.lane i).trail ≠ [] →
          let l : Lane := { s.lane i with
            state := .active, knownFill := fill, reread := .absent,
            trail := TrailEntry.atNewest (fun x => { x with finish := some { fill := fill, next := next } }) (s.lane i).trail }
          ((s.lane i).fetchIndex ≠ fill → t.lane i = l ∧ t.wr = s.wr ∧ t.win = s.win) ∧
          ((s.lane i).fetchIndex = fill → next = 0 → t.lane i = { l with state := .ended } ∧ t.wr = s.wr ∧ t.win = s.win) ∧
          ((s.lane i).fetchIndex = fill → next ≠ 0 → 4 ≤ l.trail.length →
            t.lane i = { l with state := .blocked, pendingNext := some next } ∧ t.wr = s.wr ∧ t.win = s.win) ∧
          ((s.lane i).fetchIndex = fill → next ≠ 0 → l.trail.length < 4 → (∀ x ∈ l.trail, x.address ≠ next) →
            t.lane i = l.entered next ∧ t.wr = s.wr ∧ t.win = s.win) ∧
          ((s.lane i).fetchIndex = fill → next ≠ 0 → l.trail.length < 4 → (∃ x ∈ l.trail, x.address = next) →
            faulted .badNext))) ∧
       t.cal = s.cal ∧ t.chans = s.chans ∧ t.conv = s.conv ∧ t.eng = s.eng ∧ t.tb = s.tb ∧ t.pins = s.pins) ∧
  (∀ (s : State) (i : LaneId) (seg : Word) (rq : Request) (k : Byte) (g : Nat) (d : BusData) (x : TrailEntry)
     (xs : List TrailEntry), s.free → s.port.quiet = none → s.loaderWorks = true →
     s.port.loader = .outstanding rq k g → s.loader.access = some { lane := i, kind := .status, segment := seg } →
     (s.lane i).trail = x :: xs →
     ((s.lane i).state = .active ∨ (s.lane i).state = .waiting ∨ (s.lane i).state = .stopped ∨
         ((s.lane i).state = .ended ∧ xs ≠ []) →
       ∃ t, exec (.response .loader k true d) s = .next t ∧ t.lane i = { s.lane i with trail := xs } ∧ t.wr = s.wr ∧
         t.win = s.win ∧ t.cal = s.cal ∧ t.chans = s.chans ∧ t.conv = s.conv ∧ t.eng = s.eng) ∧
     ((s.lane i).state = .ended → xs = [] →
       ∃ t, exec (.response .loader k true d) s = .next t ∧ t.lane i = { s.lane i with trail := [] } ∧
         t.wr = s.wr.offer s.now (.laneEvent i .ended (s.lane i).current (s.lane i).seqCounter s.now) ∧
         t.win = { s.win with alert := s.win.alert ||| 0x10 }) ∧
     (∀ next, (s.lane i).state = .blocked → (s.lane i).pendingNext = some next →
       ((∀ y ∈ xs, y.address ≠ next) →
         ∃ t, exec (.response .loader k true d) s = .next t ∧
           t.lane i = Lane.entered { s.lane i with trail := xs } next ∧ t.wr = s.wr ∧ t.win = s.win) ∧
       ((∃ y ∈ xs, y.address = next) →
         ∃ t, exec (.response .loader k true d) s = .next t ∧ (t.lane i).state = .faulted ∧
           t.wr = s.wr.offer s.now (.laneEvent i (.fault .badNext) (s.lane i).current
             (if (s.lane i).acceptedHead.isSome then 1 else 0) s.now) ∧
           t.win = { s.win with alert := s.win.alert ||| 0x10 })))

/-! ## The Result Writer -/

/-- RECORD_OFFER (R125, R144): a record joins the newest end of a queue with a free place; at a full queue, or with a
writer that is DONE or has taken an abort, it is lost and the lost total rises by 1, staying at its largest value. With
a page open, no access in progress and a record at the head of the queue, which is the record just offered where the
queue was empty, that head record may not fit the page: then the page's close with cause FULL begins (R135, R137), its
close time, its sequence number and its lost total are fixed, and the record stays queued; in every other case nothing
else changes. When that lost total is read is the model's reading (log 14), and that the row offers any record its
choice (log 6). The bytes of each kind of record, field by field (Tables 9-14 and 9-15; a tick time as its low 32 bits,
R183), of the FAULT record, with its tick in full, and of the page header (Table 9-13); bytes that no table assigns are
0 (R182). That the event kind bit of a request of a cue is 0 is the model's reading (log 45). -/
def Obligations.RecordsOfferedAndTheirBytes : Prop :=
  (∀ (s : State) (r : Rec), s.free →
    (s.wr.keeps = true → s.wr.queue.length < 32 →
      let w : Writer := { s.wr with queue := s.wr.queue ++ [.record r] }
      (∀ (p : Page) (x : Rec) (rest : List Item), s.wr.state = .opened → s.wr.page = some p → s.wr.task = .none →
        w.queue = .record x :: rest → p.size.toNat < p.nextFree + recLength x →
        exec (.recordOffer r) s = .next { s with wr := { w with
          closeSeq := s.wr.closeSeq + 1, deadlineDue := false,
          task := .header { cause := .full, seq := s.wr.closeSeq + 1, time := s.now, lost := s.wr.lost,
                            marker := none } } }) ∧
      ((s.wr.state ≠ .opened ∨ s.wr.task ≠ .none ∨
          ∀ (p : Page) (x : Rec) (rest : List Item), s.wr.page = some p → w.queue = .record x :: rest →
            p.nextFree + recLength x ≤ p.size.toNat) →
        exec (.recordOffer r) s = .next { s with wr := w })) ∧
    (s.wr.keeps = false ∨ 32 ≤ s.wr.queue.length → ∃ t, exec (.recordOffer r) s = .next t ∧
      t.wr.lost.toNat = min (2 ^ 32 - 1) (s.wr.lost.toNat + 1) ∧ t = { s with wr := { s.wr with lost := t.wr.lost } })) ∧
  (let sourceFields (b : List Byte) (input : InputId) (source : Source) : Prop := match source with
     | .cue lane seq => fieldOf b 0x02 1 = input.val ∧ fieldOf b 0x03 1 = lane.val ∧ fieldOf b 0x08 4 = seq.toNat
     | .link ch .action => fieldOf b 0x02 1 = input.val + 16 ∧ fieldOf b 0x03 1 = ch.val ∧ fieldOf b 0x08 4 = 0
     | .link ch .wrap => fieldOf b 0x02 1 = input.val + 16 + 32 ∧ fieldOf b 0x03 1 = ch.val ∧ fieldOf b 0x08 4 = 0
   ∀ (r : Rec) (b : List Byte), b = recBytes r →
     b.length = recLength r ∧ fieldOf b 0x01 1 = recLength r ∧
     (match r with
      | .capture ch edge counter tag wraps tick => recLength r = 16 ∧ fieldOf b 0x00 1 = 0x01 ∧
          fieldOf b 0x02 1 = ch.val + (match edge with
            | .rise => 0 | .fall => 16) ∧
          fieldOf b 0x03 1 = 0 ∧ fieldOf b 0x04 2 = counter.toNat ∧ fieldOf b 0x06 2 = tag.toNat ∧
          fieldOf b 0x08 4 = wraps.toNat ∧ fieldOf b 0x0C 4 = tick.toNat % 2 ^ 32
      | .snapshot ch mode output staged counter tag wraps tick => recLength r = 16 ∧ fieldOf b 0x00 1 = 0x02 ∧
          fieldOf b 0x02 1 = ch.val ∧
          fieldOf b 0x03 1 = (match mode with
            | .unset => 0 | .stopped => 1 | .running => 2 | .paused => 3 | .armed => 4 | .pulsing => 5) +
            (match output with
            | .low => 0 | .high => 16) + (if staged then 32 else 0) ∧
          fieldOf b 0x04 2 = counter.toNat ∧ fieldOf b 0x06 2 = tag.toNat ∧ fieldOf b 0x08 4 = wraps.toNat ∧
          fieldOf b 0x0C 4 = tick.toNat % 2 ^ 32
      | .sample input source value tag start => recLength r = 16 ∧ fieldOf b 0x00 1 = 0x03 ∧
          sourceFields b input source ∧ fieldOf b 0x04 2 = value.toNat ∧ fieldOf b 0x06 2 = tag.toNat ∧
          fieldOf b 0x0C 4 = start.toNat % 2 ^ 32
      | .drop input source cause tag tick => recLength r = 16 ∧ fieldOf b 0x00 1 = 0x04 ∧
          sourceFields b input source ∧
          fieldOf b 0x04 2 = (match cause with
            | .queueFull => 1 | .converterOff => 2 | .powerOff => 3 | .sessionEnd => 4 | .fault => 5) ∧
          fieldOf b 0x06 2 = tag.toNat ∧ fieldOf b 0x0C 4 = tick.toNat % 2 ^ 32
      | .cueReport c => recLength r = 16 ∧ fieldOf b 0x00 1 = 0x05 ∧
          fieldOf b 0x02 1 = c.lane.val + 4 * (match c.outcome with
            | .done => 0 | .doneReplacing => 1 | .already => 2 | .ignored => 3 | .empty => 4 | .doneLate => 5
            | .skippedLate => 6 | .partly => 7 | .refusedState => 8 | .refusedSettings => 9 | .refusedQueueFull => 10
            | .refusedConverterOff => 11 | .malformed => 12 | .order => 13) ∧
          fieldOf b 0x03 1 = c.code.toNat ∧ fieldOf b 0x04 4 = c.seq.toNat ∧ fieldOf b 0x08 4 = c.time.toNat % 2 ^ 32 ∧
          fieldOf b 0x0C 2 = c.detail.toNat ∧ fieldOf b 0x0E 2 = c.tag.toNat
      | .laneEvent lane event segment count tick => recLength r = 16 ∧ fieldOf b 0x00 1 = 0x06 ∧
          fieldOf b 0x02 1 = lane.val + 4 * (match event with
            | .fault _ => 1 | .ended => 2 | .cancelled => 3) ∧
          fieldOf b 0x03 1 = (match event with
            | .fault .readError => 1 | .fault .fillBackwards => 2 | .fault .fillRange => 3 | .fault .badNext => 4
            | .fault .writeError => 5 | .fault .sequenceLimit => 6 | .ended => 0 | .cancelled => 0) ∧
          fieldOf b 0x04 4 = segment.toNat ∧ fieldOf b 0x08 4 = count.toNat ∧ fieldOf b 0x0C 4 = tick.toNat % 2 ^ 32
      | .note tag payload tick => fieldOf b 0x00 1 = 0x07 ∧ fieldOf b 0x02 2 = tag.toNat ∧ fieldOf b 0x04 8 = 0 ∧
          fieldOf b 0x0C 4 = tick.toNat % 2 ^ 32 ∧
          (match payload with
            | none => recLength r = 16
            | some p => recLength r = 32 ∧ fieldOf b 0x10 16 = p.toNat)
      | .slotReject slot reason tick => recLength r = 16 ∧ fieldOf b 0x00 1 = 0x08 ∧ fieldOf b 0x02 1 = slot.val ∧
          fieldOf b 0x03 1 = (match reason with
            | .badAlign => 1 | .badSize => 2 | .outsideWindow => 3) ∧
          fieldOf b 0x04 8 = 0 ∧ fieldOf b 0x0C 4 = tick.toNat % 2 ^ 32)) ∧
  (∀ (f : FaultRecord) (b : List Byte), b = f.bytes →
     b.length = 32 ∧ fieldOf b 0x00 1 = 0x09 ∧ fieldOf b 0x01 1 = 0x20 ∧
     fieldOf b 0x02 1 = (match f.code with
       | .resultPathError => 1 | .timebaseEnd => 2) ∧
     fieldOf b 0x03 1 = (if f.secondary then 1 else 0) ∧ fieldOf b 0x04 4 = f.address.toNat ∧
     fieldOf b 0x08 6 = f.tick.toNat ∧ fieldOf b 0x0E 18 = 0) ∧
  (∀ (session : Half) (p : Page) (c : Closing) (b : List Byte), b = pageHeaderBytes session p c →
     b.length = 32 ∧ fieldOf b 0x00 2 = session.toNat ∧ fieldOf b 0x02 1 = p.slot.val ∧
     fieldOf b 0x03 1 = (match c.cause with
       | .full => 1 | .deadline => 2 | .cue => 3 | .sessionEnd => 4 | .aborted => 5 | .fault => 6) ∧
     fieldOf b 0x04 4 = c.seq.toNat ∧ fieldOf b 0x08 4 = p.records % 2 ^ 32 ∧ fieldOf b 0x0C 4 = p.nextFree % 2 ^ 32 ∧
     fieldOf b 0x10 4 = c.lost.toNat ∧ (∀ f, p.firstTick = some f → fieldOf b 0x14 6 = f.toNat) ∧
     fieldOf b 0x1A 6 = c.time.toNat)

/-- SLOT_TAKING (R130, R129): an IDLE writer with a record at the head reads the slot table, four entries of slots 0 to
3 first. The order of checks on an OFFERED slot (R130): BAD_ALIGN, then BAD_SIZE, then OUTSIDE_WINDOW. -/
def Obligations.SlotTakingAndChecks : Prop :=
  (∀ (s : State) (r : Rec) (rest : List Item), s.free →
     s.fillsPages → s.wr.state = .idle → s.wr.task = .none → s.wr.queue = .record r :: rest → ∃ t, exec .slotTaking s = .next t ∧
       t = { s with wr := { s.wr with task := .table [] } } ∧
       t.writerWants = some ({ addr := s.eng.cba + 0x100, len := 64, write := false, data := [] }, .table [])) ∧
  (∀ (w : Window) (e : SlotEntry),
     (slotCheck (some w) e = some .badAlign ↔ e.address.toNat % 256 ≠ 0) ∧
     (slotCheck (some w) e = some .badSize ↔ e.address.toNat % 256 = 0 ∧
       (e.size.toNat < 512 ∨ 65536 < e.size.toNat ∨ e.size.toNat % 256 ≠ 0)) ∧
     (slotCheck (some w) e = none ↔ e.address.toNat % 256 = 0 ∧ 512 ≤ e.size.toNat ∧ e.size.toNat ≤ 65536 ∧
       e.size.toNat % 256 = 0 ∧ w.base.toNat ≤ e.address.toNat ∧ e.address.toNat + e.size.toNat ≤ w.limit.toNat))

/-- The writer's accesses answered, in the initial fetch, ARMED, RUNNING and DRAINING. A record write answered OKAY
(R135): the record leaves the queue, the offset and record count rise, and the first record fixes the page's tick; a
next record that does not fit closes the page with FULL; with the queue then empty the page stays open, or after the
end marker is closed with SESSION_END (R140). An error of any access stops the writer and makes the session FAULTED
(R139, R143, R160, R161): the queue, the record under write with it, what the wind-down produces and the FAULT record
are counted lost, and the lanes, the channels and the Converter stop. The CLOSED write answered OKAY sets PAGE, and the
page is gone (R137, R138): the writer is IDLE and a close marker's report follows, DONE, or DONE_LATE for a late cue
(R126, R11), or after the end marker, with nothing queued, it is DONE and the path complete; the close of SESSION_END
leaves it DONE and the path complete (R140), and what joined the queue meanwhile is discarded and counted lost, which
is the model's reading (log 17); so does the last close the counter allows, the path complete where the end marker was
placed. A taken slot's FILLING write opens its page at offset 32 (R132); the page header's write is followed by the
CLOSED write, a slot table read by the next (R137, R130). After the fourth read each OFFERED slot before the first good
one that fails its checks is written REJECTED, in slot order, each giving its SLOT_REJECT record (R130, R131), then the
good one is written FILLING; with none good the writer is STARVED and STARVE is set (R133), and a reread that finds
none waits, or begins again where a request is kept. When the lost total of a close is read, and the path after the
last close of the counter, are its readings too (logs 14 and 16). -/
def Obligations.PageWritesAnswered : Prop :=
  (∀ (s : State) (p : Page) (r r' : Rec) (rest : List Item) (rq : Request) (k : Byte) (g : Nat) (d : BusData), s.free →
     s.port.quiet = none → s.eng.resetPending = false → s.fillsPages → s.wr.state = .opened →
     s.wr.page = some p → s.wr.queue = .record r :: .record r' :: rest → s.wr.task = .record (recLength r) →
     s.wr.aborting = false → s.wr.deadlineDue = false → s.port.writer = .outstanding rq k g →
     (p.nextFree + recLength r + recLength r' ≤ p.size.toNat → ∃ t, exec (.response .writer k true d) s = .next t ∧
       t.wr = { s.wr with queue := .record r' :: rest, task := .none,
                          page := some { p with nextFree := p.nextFree + recLength r, records := p.records + 1,
                                                firstTick := some (p.firstTick.getD s.now) } } ∧
       t.eng = s.eng ∧ t.win = s.win ∧ t.chans = s.chans ∧ t.cal = s.cal ∧ t.loader = s.loader) ∧
     (p.size.toNat < p.nextFree + recLength r + recLength r' → ∃ t, exec (.response .writer k true d) s = .next t ∧
       t.wr = { s.wr with queue := .record r' :: rest, closeSeq := s.wr.closeSeq + 1,
                          task := .header { cause := .full, seq := s.wr.closeSeq + 1, time := s.now, lost := s.wr.lost,
                                            marker := none },
                          page := some { p with nextFree := p.nextFree + recLength r, records := p.records + 1,
                                                firstTick := some (p.firstTick.getD s.now) } } ∧
       t.eng = s.eng ∧ t.win = s.win ∧ t.chans = s.chans ∧ t.cal = s.cal ∧ t.loader = s.loader)) ∧
  (∀ (s : State) (rq : Request) (k : Byte) (g : Nat) (d : BusData), s.free → s.port.quiet = none →
     s.eng.resetPending = false → s.fillsPages → s.port.writer = .outstanding rq k g →
     ∃ t, exec (.response .writer k false d) s = .next t ∧ t.wr.state = .done ∧ t.wr.queue = [] ∧
       t.wr.pathFailed = true ∧ t.eng.state = .faulted ∧ t.eng.faultCode = some .resultPathError ∧
       t.eng.faultAddr = rq.addr ∧ t.eng.windDown = false ∧ t.eng.converterIdle = true ∧ t.eng.pathComplete = true ∧
       t.eng.secondary = s.eng.secondary ∧ t.tb = { s.tb with runs := false } ∧ t.cal = [] ∧
       t.win = { s.win with alert := s.win.alert ||| 0x40 } ∧ t.wr.page = s.wr.page ∧ t.wr.closeSeq = s.wr.closeSeq ∧
       (s.wr.faultRecord = none →
         t.wr.lost.toNat = lostAfter s.wr.lost (recordCount s.wr.queue + (s.stopRecords s.cal).length + 1)) ∧
       (∀ i : LaneId, (t.lane i).state ≠ .active ∧ (t.lane i).state ≠ .waiting ∧ (t.lane i).state ≠ .blocked ∧
         (t.lane i).acceptedHead = none) ∧
       (∀ ch : ChanId, t.chan ch = (s.chan ch).sessionStop) ∧
       t.conv.power = .off ∧ t.conv.queue = [] ∧ t.conv.inFlight = none ∧ t.conv.closing = some .fault ∧
       t.port.loader = s.port.loader.withdrawn) ∧
  (∀ (s : State) (rq : Request) (k : Byte) (g : Nat) (d : BusData), s.free → s.port.quiet = none →
     s.eng.resetPending = false → s.fillsPages → s.wr.aborting = false → s.wr.flushing = false →
     s.port.writer = .outstanding rq k g →
     (∀ c, s.wr.task = .closed c → (c.cause = .full ∨ c.cause = .deadline ∨ c.cause = .cue) →
       s.wr.closeSeq ≠ BitVec.allOnes 32 →
       let report (m : CloseMarker) (o : CueOutcome) (detail : Half) : Rec := .cueReport {
         lane := m.lane, seq := m.seq, code := 0x89, outcome := o, time := m.time, detail := detail, tag := m.tag }
       let reports : List Rec := match c.marker with
         | none => []
         | some m => match m.lateness with
           | none => if m.report then [report m .done 0] else []
           | some late => [report m .doneLate late]
       let w : Writer := Writer.offered { s.wr with state := .idle, page := none, task := .none } s.now reports
       ∃ t, exec (.response .writer k true d) s = .next t ∧ t.win = { s.win with alert := s.win.alert ||| 0x01 } ∧
         (s.wr.endTaken = false ∨ w.queue ≠ [] → t.wr = w ∧ t.eng = s.eng) ∧
         (s.wr.endTaken = true → w.queue = [] → t.wr.state = .done ∧ t.wr.page = none ∧ t.wr.queue = [] ∧
           t.eng = { s.eng with pathComplete := true })) ∧
     (∀ c, s.wr.task = .closed c → c.cause = .sessionEnd → c.marker = none → s.wr.faultRecord = none →
       ∃ t, exec (.response .writer k true d) s = .next t ∧ t.wr.state = .done ∧ t.wr.page = none ∧ t.wr.queue = [] ∧
         t.wr.closeSeq = s.wr.closeSeq ∧ t.wr.lost.toNat = lostAfter s.wr.lost (recordCount s.wr.queue) ∧
         t.win = { s.win with alert := s.win.alert ||| 0x01 } ∧ t.eng = { s.eng with pathComplete := true }) ∧
     (∀ c, s.wr.task = .closed c → (c.cause = .full ∨ c.cause = .deadline ∨ c.cause = .cue) →
       s.wr.closeSeq = BitVec.allOnes 32 → ∃ t, exec (.response .writer k true d) s = .next t ∧
         t.wr.state = .done ∧ t.wr.page = none ∧ t.wr.queue = [] ∧ t.wr.closeSeq = s.wr.closeSeq ∧
         (c.marker = none → s.wr.faultRecord = none →
           t.wr.lost.toNat = lostAfter s.wr.lost (recordCount s.wr.queue)) ∧
         t.win = { s.win with alert := s.win.alert ||| 0x01 } ∧
         t.eng = { s.eng with pathComplete := s.eng.pathComplete || s.eng.markerPlaced }) ∧
     (∀ x r rest, s.wr.task = .fill x → s.wr.queue = .record r :: rest → 512 ≤ x.entry.size.toNat →
       ∃ t, exec (.response .writer k true d) s = .next t ∧
         t.wr = { s.wr with state := .opened, reread := .absent, task := .none,
                            page := some { slot := x.slot, address := x.entry.address, size := x.entry.size,
                                           nextFree := 32, records := 0, firstTick := none } } ∧
         t.win = s.win ∧ t.eng = s.eng) ∧
     (∀ c, s.wr.task = .header c → ∃ t, exec (.response .writer k true d) s = .next t ∧
       t.wr = { s.wr with task := .closed c } ∧ t.win = s.win ∧ t.eng = s.eng) ∧
     (∀ es, s.wr.task = .table es → es.length + 4 < 16 → ∃ t es', exec (.response .writer k true d) s = .next t ∧
       t.wr = { s.wr with task := .table (es ++ es') } ∧ es'.length = 4 ∧ es' = slotEntriesOf d ∧ t.win = s.win ∧
       t.eng = s.eng) ∧
     (∀ p r, s.wr.state = .opened → s.wr.page = some p → s.wr.task = .record (recLength r) → s.wr.deadlineDue = false →
       (s.wr.queue = [.record r] → ∃ t, exec (.response .writer k true d) s = .next t ∧
         (s.wr.endTaken = false →
           t.wr = { s.wr with queue := [], task := .none, page := some (p.after (recLength r) s.now) }) ∧
         (s.wr.endTaken = true →
           t.wr = { s.wr with queue := [], page := some (p.after (recLength r) s.now), closeSeq := s.wr.closeSeq + 1,
                              task := .header { cause := .sessionEnd, seq := s.wr.closeSeq + 1, time := s.now,
                                                lost := s.wr.lost, marker := none } }) ∧
         t.win = s.win ∧ t.eng = s.eng) ∧
       (∀ x rest, s.wr.queue = .record r :: x :: rest → (x = .endMarker ∨ ∃ m, x = .closeMarker m) →
         ∃ t, exec (.response .writer k true d) s = .next t ∧
           t.wr = { s.wr with queue := x :: rest, task := .none, page := some (p.after (recLength r) s.now) } ∧
           t.win = s.win ∧ t.eng = s.eng)) ∧
     (∀ es failed good, s.wr.task = .table es → es.length = 12 →
       examineSlots s.port.window ((List.finRange 16).zip (es ++ slotEntriesOf d)) = (failed, good) →
       ∃ t, exec (.response .writer k true d) s = .next t ∧
         (failed ≠ [] → t.wr = { s.wr with task := .reject failed good } ∧ t.win = s.win) ∧
         (∀ x, failed = [] → good = some x → t.wr = { s.wr with task := .fill x } ∧ t.win = s.win) ∧
         (failed = [] → good = none → s.wr.state = .idle →
           t.wr = { s.wr with state := .starved, starveCount := 0, reread := .absent, task := .none } ∧
           t.win = { s.win with alert := s.win.alert ||| 0x02 }) ∧
         (failed = [] → good = none → s.wr.state = .starved →
           t.wr = (if s.wr.reread = .kept then { s.wr with reread := .present, task := .table [] }
                   else { s.wr with reread := .absent, task := .none }) ∧ t.win = s.win) ∧
         t.eng = s.eng) ∧
     (∀ x todo good, s.wr.task = .reject (x :: todo) good → (s.wr.state = .idle ∨ s.wr.state = .starved) →
       let w : Writer := s.wr.offer s.now (.slotReject x.slot x.reason s.now)
       ∃ t, exec (.response .writer k true d) s = .next t ∧
         (todo ≠ [] → t.wr = { w with task := .reject todo good } ∧ t.win = s.win) ∧
         (∀ y, todo = [] → good = some y → t.wr = { w with task := .fill y } ∧ t.win = s.win) ∧
         (todo = [] → good = none → s.wr.state = .idle →
           t.wr = { w with state := .starved, starveCount := 0, reread := .absent, task := .none } ∧
           t.win = { s.win with alert := s.win.alert ||| 0x02 }) ∧
         (todo = [] → good = none → s.wr.state = .starved →
           t.wr = (if s.wr.reread = .kept then { w with reread := .present, task := .table [] }
                   else { w with reread := .absent, task := .none }) ∧ t.win = s.win) ∧
         t.eng = s.eng)) ∧
  (∀ (w : Option Window) (slot : SlotId) (e : SlotEntry) (rest : List (SlotId × SlotEntry)),
     examineSlots w [] = ([], none) ∧
     (e.state ≠ 1 → examineSlots w ((slot, e) :: rest) = examineSlots w rest) ∧
     (e.state = 1 → slotCheck w e = none → examineSlots w ((slot, e) :: rest) = ([], some { slot, entry := e })) ∧
     (∀ reason, e.state = 1 → slotCheck w e = some reason →
       examineSlots w ((slot, e) :: rest) =
         ({ slot, reason, entry := e } :: (examineSlots w rest).1, (examineSlots w rest).2)))

/-- CLOSE_MARKER_REACHED (R126): with a page open it is closed with cause CUE, the next close sequence number and the
lost total as it stands; with no page open a cue that was not late has the outcome EMPTY, reported only if the report
flag was 1, and a late one DONE_LATE, reported with its lateness. END_MARKER_REACHED (R140): the marker is removed; what
stands behind it is written out, and a record there that does not fit closes the page with FULL; with the queue empty an
open page is closed with cause SESSION_END, and with no page the writer is DONE and the result path complete. When the
lost total is read is the model's reading (log 14). -/
def Obligations.MarkersReached : Prop :=
  (∀ (s : State) (m : CloseMarker) (rest : List Item), s.free → s.fillsPages → s.wr.task = .none →
     s.wr.queue = .closeMarker m :: rest →
     (∀ p, s.wr.state = .opened → s.wr.page = some p →
       exec .closeMarkerReached s = .next { s with wr := { s.wr with
         queue := rest, closeSeq := s.wr.closeSeq + 1, deadlineDue := false,
         task := .header { cause := .cue, seq := s.wr.closeSeq + 1, time := s.now, lost := s.wr.lost,
                           marker := some m } } }) ∧
     (s.wr.state = .idle → s.wr.page = none → s.wr.keeps = true → s.wr.flushing = false → rest.length < 32 →
       let report (o : CueOutcome) (detail : Half) : Rec := .cueReport {
         lane := m.lane, seq := m.seq, code := 0x89, outcome := o, time := m.time, detail := detail, tag := m.tag }
       (m.lateness = none → m.report = true → exec .closeMarkerReached s = .next { s with wr := { s.wr with
         queue := rest ++ [.record (report .empty 0)] } }) ∧
       (m.lateness = none → m.report = false →
         (s.wr.endTaken = false ∨ rest ≠ [] →
           exec .closeMarkerReached s = .next { s with wr := { s.wr with queue := rest } }) ∧
         (s.wr.endTaken = true → rest = [] → ∃ t, exec .closeMarkerReached s = .next t ∧ t.wr.state = .done ∧
           t.wr.queue = [] ∧ t.eng = { s.eng with pathComplete := true } ∧ t = { s with wr := t.wr, eng := t.eng })) ∧
       (∀ late, m.lateness = some late → exec .closeMarkerReached s = .next { s with wr := { s.wr with
         queue := rest ++ [.record (report .doneLate late)] } }))) ∧
  (∀ s : State, s.free → s.eng.state = .draining → s.wr.task = .none → s.wr.queue = [.endMarker] →
     s.wr.flushing = false →
     (∀ p, s.wr.state = .opened → s.wr.page = some p →
       exec .endMarkerReached s = .next { s with wr := { s.wr with
         queue := [], endTaken := true, closeSeq := s.wr.closeSeq + 1, deadlineDue := false,
         task := .header { cause := .sessionEnd, seq := s.wr.closeSeq + 1, time := s.now, lost := s.wr.lost,
                           marker := none } } }) ∧
     (s.wr.state = .idle → s.wr.page = none → ∃ t, exec .endMarkerReached s = .next t ∧ t.wr.state = .done ∧
       t.wr.queue = [] ∧ t.eng = { s.eng with pathComplete := true } ∧ t = { s with wr := t.wr, eng := t.eng })) ∧
  (∀ (s : State) (x : Item) (rest : List Item), s.free → s.eng.state = .draining → s.wr.task = .none →
     s.wr.queue = .endMarker :: x :: rest → s.wr.flushing = false →
     let w : Writer := { s.wr with queue := x :: rest, endTaken := true }
     (s.wr.state = .idle → exec .endMarkerReached s = .next { s with wr := w }) ∧
     (∀ p, s.wr.state = .opened → s.wr.page = some p →
       ((∀ r, x = .record r → p.nextFree + recLength r ≤ p.size.toNat) →
         exec .endMarkerReached s = .next { s with wr := w }) ∧
       (∀ r, x = .record r → p.size.toNat < p.nextFree + recLength r →
         exec .endMarkerReached s = .next { s with wr := { w with
           closeSeq := s.wr.closeSeq + 1, deadlineDue := false,
           task := .header { cause := .full, seq := s.wr.closeSeq + 1, time := s.now, lost := s.wr.lost,
                             marker := none } } })))

/-- DEADLINE_EXPIRY (R136): at the first tick at or past first-record tick plus deadline, in RUNNING and in a DRAINING
entered from it, an open page is closed with cause DEADLINE; with a record write outstanding the close is made when
that write has been answered, and the record is in the closed page; with no deadline, or earlier, with the timebase
held, with no page or no record in it, or with a close already decided, nothing happens. DRAIN_LIMIT_EXPIRY (R134,
R158): a STARVED writer in DRAINING whose 16th scan event's reread found no slot discards its queue and is DONE, and
the end cause becomes DRAIN_LOSS; before that it does not occur. That while an engine reset is pending the writer does
so too, and Engine Control takes nothing, is the model's reading of R145 and R166 (log 19). When the lost total is
read, when the path is complete and what counts as outstanding are its readings too (logs 14, 16 and 20). -/
def Obligations.DeadlineAndDrainLimit : Prop :=
  (∀ (s : State) (p : Page) (f : Tick), s.free → s.tb.runs = true → (s.eng.state = .running ∨ s.eng.state = .draining) →
     s.wr.state = .opened → s.wr.page = some p → p.firstTick = some f →
     (s.params.deadline.toNat ≠ 0 → f.toNat + s.params.deadline.toNat ≤ s.now.toNat →
       (s.wr.task = .none → exec .deadlineExpiry s = .next { s with wr := { s.wr with
         closeSeq := s.wr.closeSeq + 1, deadlineDue := false,
         task := .header { cause := .deadline, seq := s.wr.closeSeq + 1, time := s.now, lost := s.wr.lost,
                           marker := none } } }) ∧
       (∀ n, s.wr.task = .record n →
         exec .deadlineExpiry s = .next { s with wr := { s.wr with deadlineDue := true } })) ∧
     (s.params.deadline.toNat = 0 ∨ s.now.toNat < f.toNat + s.params.deadline.toNat → exec .deadlineExpiry s = .next s)) ∧
  (∀ s : State, s.tb.runs = false ∨ s.wr.page = none ∨ (∃ c, s.wr.task = .header c ∨ s.wr.task = .closed c) ∨
     (∃ p, s.wr.page = some p ∧ p.firstTick = none) → exec .deadlineExpiry s = .next s) ∧
  (∀ (s : State) (p : Page) (x : Item) (rest : List Item) (n : Nat) (rq : Request) (k : Byte) (g : Nat) (d : BusData),
     s.free → s.port.quiet = none → (s.eng.state = .armed ∨ s.eng.state = .running ∨ s.eng.state = .draining) →
     s.wr.aborting = false → s.wr.state = .opened → s.wr.page = some p → s.wr.task = .record n →
     s.wr.queue = x :: rest → s.wr.deadlineDue = true → s.port.writer = .outstanding rq k g →
     ∃ t, exec (.response .writer k true d) s = .next t ∧
       t.wr = { s.wr with
         queue := rest, page := some (p.after n s.now), closeSeq := s.wr.closeSeq + 1, deadlineDue := false,
         task := .header { cause := .deadline, seq := s.wr.closeSeq + 1, time := s.now, lost := s.wr.lost,
                           marker := none } } ∧
       t.eng = s.eng ∧ t.win = s.win) ∧
  (∀ s : State, s.free → s.eng.state = .draining → s.eng.resetPending = false → s.wr.state = .starved →
     s.wr.task = .none → s.wr.reread = .absent →
     (16 ≤ s.wr.starveCount → ∃ t, exec .drainLimitExpiry s = .next t ∧ t.wr.state = .done ∧ t.wr.queue = [] ∧
       t.wr.closeSeq = s.wr.closeSeq ∧ (s.wr.faultRecord = none →
         t.wr.lost.toNat = min (2 ^ 32 - 1) (s.wr.lost.toNat + recordCount s.wr.queue)) ∧
       t.eng = { s.eng with endCause := .drainLoss, pathComplete := s.eng.pathComplete || s.eng.markerPlaced } ∧
       t = { s with wr := t.wr, eng := t.eng }) ∧
     (s.wr.starveCount < 16 → exec .drainLimitExpiry s = .next s)) ∧
  (∀ s : State, s.free → s.eng.state = .draining → s.eng.resetPending = true → s.wr.state = .starved →
     s.wr.task = .none → s.wr.reread = .absent → 16 ≤ s.wr.starveCount → ∃ t, exec .drainLimitExpiry s = .next t ∧
       t.wr.state = .done ∧ t.wr.queue = [] ∧ t = { s with wr := t.wr })

/-! ## Engine Control -/

/-- The control block reads answered (R149 to R152): the first answered OKAY makes the second read next; an ERROR of
either fails the PREPARE with BUS_ERROR. After the second a failed check leaves the blocks as they were, with the
prepare error, PREP and OFF; passed checks put the parameters in force and set every block up: an enabled lane ACTIVE at
its first segment (R27); no link delivery is discarded (R116; LinksDelivered: none is under way then). -/
def Obligations.SecondReadAnswered : Prop :=
  (∀ (s : State) (first d : BusData) (rq : Request) (k : Byte) (g : Nat), s.free → s.port.quiet = none →
    s.eng.resetPending = false → s.eng.state = .preparing → s.eng.aborting = false →
    s.eng.task = .readSecond first → s.port.engine = .outstanding rq k g →
    (∀ e, prepareChecks s.eng.cba (d ++ first) = .error e → ∃ t, exec (.response .engine k true d) s = .next t ∧
      t.eng.state = .off ∧ t.eng.prepError = e ∧ t.win = { s.win with alert := s.win.alert ||| 0x80 } ∧
      t.cal = s.cal ∧ t.loader = s.loader ∧ t.chans = s.chans ∧ t.conv = s.conv ∧ t.wr = s.wr ∧ t.tb = s.tb ∧
      t.params = s.params ∧ t.pins = s.pins ∧ t.eng.session = s.eng.session) ∧
    (∀ su, prepareChecks s.eng.cba (d ++ first) = .ok su → ∃ t, exec (.response .engine k true d) s = .next t ∧
      t.eng.state = .preparing ∧ t.eng.checked = true ∧ t.eng.lastStart = s.pins.start ∧ t.win = s.win ∧
      t.port.window = some su.window ∧ t.params = su.params ∧
      t.tb = { count := su.startTime, runs := false, divider := su.divider, scanCount := 0 } ∧ t.cal = [] ∧
      (∀ i : LaneId, t.lane i = if (su.lanes[i]).1 then { Lane.off with
        state := .active, current := (su.lanes[i]).2,
        trail := [{ address := (su.lanes[i]).2, fetched := 0, retired := 0, finish := none }] } else Lane.off) ∧
      (∀ ch : ChanId, (t.chan ch).mode = .unset ∧ (t.chan ch).lastSample = s.pins.tin[ch] ∧
        (t.chan ch).output = (t.chan ch).restLevel ∧
        (t.chan ch).restLevel = if su.restLevels.getLsbD ch.val then .high else .low) ∧
      t.conv.power = .off ∧ t.conv.current = .supply ∧ t.conv.queue = [] ∧ t.conv.closing = none ∧
      t.wr = Writer.reset ∧ t.links = s.links ∧
      t.eng.session = s.eng.session ∧ t.pins = s.pins)) ∧
  (∀ (s : State) (rq : Request) (k : Byte) (g : Nat) (d : BusData), s.free → s.port.quiet = none →
    s.eng.resetPending = false → s.eng.state = .preparing → s.eng.aborting = false → s.eng.staleRead = false →
    s.port.engine = .outstanding rq k g →
    (s.eng.task = .readFirst → ∃ t, exec (.response .engine k true d) s = .next t ∧
      t.eng = { s.eng with task := .readSecond d } ∧
      t.engineWants = some { addr := s.eng.cba + 64, len := 64, write := false, data := [] } ∧
      t.win = s.win ∧ t.loader = s.loader ∧ t.wr = s.wr ∧ t.conv = s.conv) ∧
    (s.eng.task = .readFirst ∨ (∃ first, s.eng.task = .readSecond first) →
      ∃ t, exec (.response .engine k false d) s = .next t ∧
        t.eng.state = .off ∧ t.eng.prepError = .busError ∧ t.win = { s.win with alert := s.win.alert ||| 0x80 } ∧
        t.cal = s.cal ∧ t.loader = s.loader ∧ t.chans = s.chans ∧ t.conv = s.conv ∧ t.wr = s.wr ∧ t.tb = s.tb ∧
        t.params = s.params ∧ t.pins = s.pins ∧ t.eng.session = s.eng.session))

/-- The checks of Table 7-4 in their order (R150): which field makes which prepare error, the first that fails. Where
all pass, the session takes its parameters from the fields of Tables 9-4 and 9-5: the window, the tick divider, the
start time, the horizon, the scan period, the page deadline, the start source, the initial rest levels, and for each
lane whether it is enabled and its first segment. -/
def Obligations.PrepareChecksInOrder : Prop :=
  ∀ (cba : Word) (cb : BitVec 1024),
    let half (off : Nat) : Nat := (cb.extractLsb' (8 * off) 16).toNat
    let word (off : Nat) : Nat := (cb.extractLsb' (8 * off) 32).toNat
    let format : Prop := half 0x00 = 1
    let window : Prop := word 0x20 % 4096 = 0 ∧ word 0x24 % 4096 = 0 ∧ word 0x20 < word 0x24 ∧
      word 0x20 ≤ cba.toNat ∧ cba.toNat + 512 ≤ word 0x24
    let divider : Prop := 1 ≤ half 0x02 ∧ half 0x02 ≤ 1024
    let horizon : Prop := word 0x10 ≠ 0
    let scan : Prop := 1 ≤ word 0x14 ∧ word 0x14 ≤ 16777215
    let source : Prop := (cb.extractLsb' 0x20 8).toNat ≤ 2
    let lanes : Prop := ∀ i, i < 4 → word (0x40 + 16 * i) = 0 ∨ (word (0x40 + 16 * i) = 1 ∧
      word (0x44 + 16 * i) % 2048 = 0 ∧ word 0x20 ≤ word (0x44 + 16 * i) ∧ word (0x44 + 16 * i) + 2048 ≤ word 0x24)
    (prepareChecks cba cb = .error .badFormat ↔ ¬ format) ∧
    (prepareChecks cba cb = .error .badWindow ↔ format ∧ ¬ window) ∧
    (prepareChecks cba cb = .error .badDivider ↔ format ∧ window ∧ ¬ divider) ∧
    (prepareChecks cba cb = .error .badHorizon ↔ format ∧ window ∧ divider ∧ ¬ horizon) ∧
    (prepareChecks cba cb = .error .badScan ↔ format ∧ window ∧ divider ∧ horizon ∧ ¬ scan) ∧
    (prepareChecks cba cb = .error .badStartSource ↔ format ∧ window ∧ divider ∧ horizon ∧ scan ∧ ¬ source) ∧
    (prepareChecks cba cb = .error .badLane ↔ format ∧ window ∧ divider ∧ horizon ∧ scan ∧ source ∧ ¬ lanes) ∧
    ((∃ su, prepareChecks cba cb = .ok su) ↔ format ∧ window ∧ divider ∧ horizon ∧ scan ∧ source ∧ lanes) ∧
    (∀ su, prepareChecks cba cb = .ok su →
      su.window.base.toNat = word 0x20 ∧ su.window.limit.toNat = word 0x24 ∧ su.divider = half 0x02 ∧
      su.startTime = cb.extractLsb' (8 * 0x08) 48 ∧ su.params.horizon.toNat = word 0x10 ∧
      su.params.scanPeriod.toNat = word 0x14 ∧ su.params.deadline.toNat = word 0x18 ∧
      (su.params.startSource = .command ↔ (cb.extractLsb' 0x20 8).toNat = 0) ∧
      (su.params.startSource = .lineRise ↔ (cb.extractLsb' 0x20 8).toNat = 1) ∧
      (su.params.startSource = .lineFall ↔ (cb.extractLsb' 0x20 8).toNat = 2) ∧
      su.restLevels.toNat = half 0x1C ∧
      (∀ i : LaneId, ((su.lanes[i]).1 = true ↔ word (0x40 + 16 * i.val) = 1) ∧
        (su.lanes[i]).2.toNat = word (0x44 + 16 * i.val)))

/-- INITIAL_FETCH_COMPLETE (R40, R152): just when every lane is OFF, or is WAITING, BLOCKED, ENDED or FAULTED with no
read outstanding, or holds a head that is not offered (one held, or due beyond the horizon: HeadOffer) or that finds no
free entry, the engine becomes ARMED, and the scan period starts; a read is outstanding from its grant on (the model's
reading, log 13). LOADER_QUIET and END_MARKER_PLACE in a drain (R48, R158): with nothing of the Loader at the port and
no status write pending it is quiet; with the Converter idle too, the end marker joins a queue with a free place, or
waits, and it waits while a conversion request of a link is under way, whose DROP stands before it (R120; that a
request can be under way is the model's reading, log 21). -/
def Obligations.InitialFetchAndDrainSteps : Prop :=
  (∀ s : State, s.free → s.eng.state = .preparing → s.eng.checked = true → s.eng.aborting = false →
     s.eng.resetPending = false →
     let reading (i : LaneId) : Prop := s.port.loader.isOutstanding = true ∧
       ∃ a, s.loader.access = some a ∧ a.lane = i ∧ a.kind ≠ .status
     let fetched (i : LaneId) : Prop := (s.lane i).state = .off ∨
       (((s.lane i).state = .waiting ∨ (s.lane i).state = .blocked ∨ (s.lane i).state = .ended ∨
         (s.lane i).state = .faulted) ∧ ¬ reading i) ∨
       ((s.lane i).head ≠ none ∧ (s.offeredHead i = none ∨ 48 ≤ s.cal.length))
     ((∀ i, fetched i) →
       exec .initialFetchComplete s =
         .next { s with eng := { s.eng with state := .armed }, tb := { s.tb with scanCount := 0 } }) ∧
     ((∃ i, ¬ fetched i) → exec .initialFetchComplete s = .next s)) ∧
  ((∀ s : State, s.free → s.eng.state = .draining → s.eng.resetPending = false → s.loader.access = none →
     s.port.loader = .none → (∀ i : LaneId, (s.lane i).oldestComplete = false ∧
       ((s.lane i).state = .stopped ∨ (s.lane i).state = .off ∨ (s.lane i).state = .faulted ∨ (s.lane i).state = .ended)) →
     exec .loaderQuiet s = .next { s with eng := { s.eng with loaderQuiet := true } }) ∧
   (∀ s : State, s.free → s.eng.state = .draining → s.eng.resetPending = false → s.eng.converterIdle = true →
     s.eng.loaderQuiet = true → s.eng.markerPlaced = false →
     ((∃ d ∈ s.links, d.asksConversion = true) → exec .endMarkerPlace s = .next s) ∧
     ((∀ d ∈ s.links, d.asksConversion = false) →
      (s.wr.state ≠ .done → s.wr.queue.length < 32 →
       exec .endMarkerPlace s = .next { s with wr := { s.wr with queue := s.wr.queue ++ [.endMarker] },
                                               eng := { s.eng with markerPlaced := true } }) ∧
      (s.wr.state ≠ .done → s.wr.queue.length = 32 → exec .endMarkerPlace s = .next s) ∧
      (s.wr.state = .done →
       exec .endMarkerPlace s = .next { s with eng := { s.eng with markerPlaced := true, pathComplete := true } }))))

/-- END_SUMMARY_WRITE (R158, R159, R161, R163, R164): when the three reports have come, in a drain with its end marker
placed, in an abort or in a wind-down, and no link delivery is under way, whose request would still be dropped and
counted (R116, R121), the timebase stops and the summary is taken: the termination code, the secondary flag, the session
number, the fault address, the final time, the last close sequence number, the lost total, each lane's final state, cues
fetched and cues retired, and the valid word; its first write is 64 bytes at 080H. Each write answered OKAY is followed
by the next; the valid word's answer, or an error, which sets the secondary flag (R162), ends it: a drain and an abort
become ENDED with wind-down complete set, and END; a wind-down sets wind-down complete and no alert. That the close
sequence number is the writer's counter, also where its last close did not complete, and that the summary waits for a
delivery under way are the model's readings (logs 43 and 21). -/
def Obligations.EndSummaryWritten : Prop :=
  (∀ s : State, s.free → s.eng.resetPending = false → s.eng.task = .none → s.port.engine = .none →
     s.eng.converterIdle = true → s.eng.loaderQuiet = true → s.eng.pathComplete = true →
     ((s.eng.state = .draining ∧ s.eng.markerPlaced = true) ∨
       ((s.eng.state = .ended ∨ s.eng.state = .faulted) ∧ s.eng.windDown = false)) →
     (s.links ≠ [] → exec .endSummaryWrite s = .next s) ∧
     (s.links = [] → ∃ t bytes, exec .endSummaryWrite s = .next t ∧
       t = { s with tb := { s.tb with runs := false }, eng := { s.eng with task := .summary 0 bytes } } ∧
       bytes.length = 128 ∧
       bytes.take 8 = [terminationCode s.eng, if s.eng.secondary then 1 else 0] ++ le 2 s.eng.session ++
         le 4 s.eng.faultAddr ∧
       (bytes.drop 8).take 6 = le 6 s.tb.count ∧ (bytes.drop 16).take 4 = le 4 s.wr.closeSeq ∧
       (bytes.drop 20).take 4 = le 4 s.wr.lost ∧
       (∀ i : LaneId, (bytes.drop (24 + 12 * i.val)).take 12 =
         [(s.lane i).state.code, 0, 0, 0] ++ le 4 (s.lane i).seqCounter ++ le 4 (s.lane i).cuesRetired) ∧
       bytes.drop 124 = le 4 (s.eng.session.setWidth 32) ∧
       t.engineWants = some { addr := s.eng.cba + 0x80, len := 64, write := true, data := bytes.take 64 })) ∧
  (∀ (s : State) (bytes : List Byte) (w : Fin 3) (rq : Request) (n : Byte) (g : Nat) (d : BusData) (ok : Bool), s.free →
     s.port.quiet = none → s.eng.resetPending = false → s.eng.task = .summary w bytes →
     s.port.engine = .outstanding rq n g →
     (s.eng.state = .draining ∨ s.eng.state = .ended ∨ s.eng.state = .faulted) →
     ∃ t, exec (.response .engine n ok d) s = .next t ∧ t.wr = s.wr ∧ t.loader = s.loader ∧ t.chans = s.chans ∧
       t.tb = s.tb ∧
       (ok = true → w ≠ 2 → t.eng = { s.eng with task := .summary (w + 1) bytes } ∧ t.win = s.win) ∧
       (ok = false ∨ w = 2 →
         (s.eng.state = .draining ∨ s.eng.state = .ended →
           t.eng = { s.eng with state := .ended, windDown := true, task := .none, secondary := s.eng.secondary || !ok } ∧
           t.win = { s.win with alert := s.win.alert ||| 0x20 }) ∧
         (s.eng.state = .faulted →
           t.eng = { s.eng with windDown := true, task := .none, secondary := s.eng.secondary || !ok } ∧
           t.win = s.win))) ∧
  (∀ g : EngineControl, (terminationCode g).toNat = (match g.state, g.faultCode with
     | .faulted, some .resultPathError => 0x81
     | .faulted, some .timebaseEnd => 0x82
     | _, _ => match g.endCause with
       | .none => 0 | .stopCommand => 1 | .endCue => 2 | .notStarted => 3 | .drainLoss => 4 | .aborted => 5)) ∧
  (∀ l : LaneState, l.code.toNat = (match l with
     | .off => 0 | .active => 1 | .waiting => 2 | .blocked => 3 | .ended => 4 | .faulted => 5 | .stopped => 6))

/-! ## Invariants of every step -/

/-- Every step keeps the queues, the Calendar and the trails within their places (R13, R41, R112, R124). -/
def Obligations.StepKeepsPlaces : Prop :=
  ∀ s t : State, s.withinPlaces → step s = .next t → t.withinPlaces

/-- Every step keeps the Calendar in Calendar order (R14): no entry stands behind one that comes after it by due time,
then lane number, then lane sequence number. -/
def Obligations.StepKeepsCalendarOrder : Prop :=
  (∀ s t : State, s.calendarInOrder → step s = .next t → t.calendarInOrder) ∧
  (∀ s : State, s.calendarInOrder ↔ s.cal.Pairwise fun a b => ¬ (b.cue.due.toNat < a.cue.due.toNat ∨
    (b.cue.due = a.cue.due ∧ (b.lane < a.lane ∨ (b.lane = a.lane ∧ b.seq.toNat < a.seq.toNat)))))

/-- Every step keeps the channels at rest outside RUNNING, and UNSET and STOPPED channels at their rest level (R79). -/
def Obligations.StepKeepsChannelsAtRest : Prop :=
  ∀ s t : State, s.timebaseHeld → s.channelsRest → step s = .next t → t.channelsRest

/-- Every step keeps each channel's counter below its wrap limit, and below the action mark in a pulse (R58, R59, R69).
-/
def Obligations.StepKeepsCountersInRange : Prop :=
  ∀ s t : State, s.countersInRange → step s = .next t → t.countersInRange

/-- Every step keeps the request path with a requester whose transaction is outstanding (R171). -/
def Obligations.StepKeepsPathHeld : Prop := ∀ s t : State, s.pathHeld → step s = .next t → t.pathHeld

/-- Every step keeps the writer's access, page and queue fitting its state (Tables 6-2, 6-3, R144). -/
def Obligations.StepKeepsWriterCoherent : Prop :=
  ∀ s t : State, s.wr.coherent → step s = .next t → t.wr.coherent

/-- Every step keeps the timebase held outside RUNNING and DRAINING and while a summary is written, and the tick divider
1 to 1024 (R154, R150). -/
def Obligations.StepKeepsTimebaseHeld : Prop :=
  ∀ s t : State, s.timebaseHeld → step s = .next t → t.timebaseHeld

end
end

