-- ==== Sys2Proof/Laws/State.lean ====
section
/-! SUPPORT. Laws/State.lean: for each update of State and of its parts, what it leaves and what it sets. -/

namespace Sys2Proof.Machine

/-! ## act -/

theorem act_free {s : State} (h : s.pins.resetHeld = false) (f : State → State) : act s f = .next (f s) := by
  simp [act, h]

theorem act_held {s : State} (h : s.pins.resetHeld = true) (f : State → State) : act s f = .next s := by
  simp [act, h]

theorem act_eq_next {s t : State} {f : State → State} :
    act s f = .next t ↔ t = if s.pins.resetHeld then s else f s := by
  simp only [act, Host.Outcome.next.injEq]
  exact eq_comm

/-! ## Lanes and channels -/

@[simp] theorem State.lane_setLane_same (s : State) (i : LaneId) (l : Lane) : (s.setLane i l).lane i = l := by
  simp [State.lane, State.setLane]

theorem State.lane_setLane_ne (s : State) {i j : LaneId} (l : Lane) (h : i ≠ j) : (s.setLane i l).lane j = s.lane j := by
  have h' : i.val ≠ j.val := fun e => h (Fin.ext e)
  simp [State.lane, State.setLane, h']

@[simp] theorem State.chan_setChan_same (s : State) (i : ChanId) (c : Channel) : (s.setChan i c).chan i = c := by
  simp [State.chan, State.setChan]

theorem State.chan_setChan_ne (s : State) {i j : ChanId} (c : Channel) (h : i ≠ j) : (s.setChan i c).chan j = s.chan j := by
  have h' : i.val ≠ j.val := fun e => h (Fin.ext e)
  simp [State.chan, State.setChan, h']

theorem State.lane_eq (s : State) (i : LaneId) : s.lane i = s.loader.lanes[i] := rfl

theorem State.chan_eq (s : State) (i : ChanId) : s.chan i = s.chans[i] := rfl

@[simp] theorem State.chan_mapChans (s : State) (f : ChanId → Channel → Channel) (i : ChanId) :
    (s.mapChans f).chan i = f i (s.chan i) := by
  simp [State.chan, State.mapChans]

/-! ## setLane -/

@[simp] theorem State.pending_setLane (s : State) (i : LaneId) (l : Lane) : (s.setLane i l).pending = s.pending := rfl
@[simp] theorem State.eng_setLane (s : State) (i : LaneId) (l : Lane) : (s.setLane i l).eng = s.eng := rfl
@[simp] theorem State.tb_setLane (s : State) (i : LaneId) (l : Lane) : (s.setLane i l).tb = s.tb := rfl
@[simp] theorem State.params_setLane (s : State) (i : LaneId) (l : Lane) : (s.setLane i l).params = s.params := rfl
@[simp] theorem State.cal_setLane (s : State) (i : LaneId) (l : Lane) : (s.setLane i l).cal = s.cal := rfl
@[simp] theorem State.chans_setLane (s : State) (i : LaneId) (l : Lane) : (s.setLane i l).chans = s.chans := rfl
@[simp] theorem State.links_setLane (s : State) (i : LaneId) (l : Lane) : (s.setLane i l).links = s.links := rfl
@[simp] theorem State.conv_setLane (s : State) (i : LaneId) (l : Lane) : (s.setLane i l).conv = s.conv := rfl
@[simp] theorem State.wr_setLane (s : State) (i : LaneId) (l : Lane) : (s.setLane i l).wr = s.wr := rfl
@[simp] theorem State.port_setLane (s : State) (i : LaneId) (l : Lane) : (s.setLane i l).port = s.port := rfl
@[simp] theorem State.win_setLane (s : State) (i : LaneId) (l : Lane) : (s.setLane i l).win = s.win := rfl
@[simp] theorem State.pins_setLane (s : State) (i : LaneId) (l : Lane) : (s.setLane i l).pins = s.pins := rfl

/-! ## setChan -/

@[simp] theorem State.pending_setChan (s : State) (i : ChanId) (c : Channel) : (s.setChan i c).pending = s.pending := rfl
@[simp] theorem State.eng_setChan (s : State) (i : ChanId) (c : Channel) : (s.setChan i c).eng = s.eng := rfl
@[simp] theorem State.tb_setChan (s : State) (i : ChanId) (c : Channel) : (s.setChan i c).tb = s.tb := rfl
@[simp] theorem State.params_setChan (s : State) (i : ChanId) (c : Channel) : (s.setChan i c).params = s.params := rfl
@[simp] theorem State.cal_setChan (s : State) (i : ChanId) (c : Channel) : (s.setChan i c).cal = s.cal := rfl
@[simp] theorem State.loader_setChan (s : State) (i : ChanId) (c : Channel) : (s.setChan i c).loader = s.loader := rfl
@[simp] theorem State.links_setChan (s : State) (i : ChanId) (c : Channel) : (s.setChan i c).links = s.links := rfl
@[simp] theorem State.conv_setChan (s : State) (i : ChanId) (c : Channel) : (s.setChan i c).conv = s.conv := rfl
@[simp] theorem State.wr_setChan (s : State) (i : ChanId) (c : Channel) : (s.setChan i c).wr = s.wr := rfl
@[simp] theorem State.port_setChan (s : State) (i : ChanId) (c : Channel) : (s.setChan i c).port = s.port := rfl
@[simp] theorem State.win_setChan (s : State) (i : ChanId) (c : Channel) : (s.setChan i c).win = s.win := rfl
@[simp] theorem State.pins_setChan (s : State) (i : ChanId) (c : Channel) : (s.setChan i c).pins = s.pins := rfl

/-! ## mapChans -/

@[simp] theorem State.pending_mapChans (s : State) (f : ChanId → Channel → Channel) : (s.mapChans f).pending = s.pending :=
    by simp only [State.mapChans]
@[simp] theorem State.eng_mapChans (s : State) (f : ChanId → Channel → Channel) : (s.mapChans f).eng = s.eng :=
    by simp only [State.mapChans]
@[simp] theorem State.tb_mapChans (s : State) (f : ChanId → Channel → Channel) : (s.mapChans f).tb = s.tb :=
    by simp only [State.mapChans]
@[simp] theorem State.params_mapChans (s : State) (f : ChanId → Channel → Channel) : (s.mapChans f).params = s.params :=
    by simp only [State.mapChans]
@[simp] theorem State.cal_mapChans (s : State) (f : ChanId → Channel → Channel) : (s.mapChans f).cal = s.cal :=
    by simp only [State.mapChans]
@[simp] theorem State.loader_mapChans (s : State) (f : ChanId → Channel → Channel) : (s.mapChans f).loader = s.loader :=
    by simp only [State.mapChans]
@[simp] theorem State.links_mapChans (s : State) (f : ChanId → Channel → Channel) : (s.mapChans f).links = s.links :=
    by simp only [State.mapChans]
@[simp] theorem State.conv_mapChans (s : State) (f : ChanId → Channel → Channel) : (s.mapChans f).conv = s.conv :=
    by simp only [State.mapChans]
@[simp] theorem State.wr_mapChans (s : State) (f : ChanId → Channel → Channel) : (s.mapChans f).wr = s.wr :=
    by simp only [State.mapChans]
@[simp] theorem State.port_mapChans (s : State) (f : ChanId → Channel → Channel) : (s.mapChans f).port = s.port :=
    by simp only [State.mapChans]
@[simp] theorem State.win_mapChans (s : State) (f : ChanId → Channel → Channel) : (s.mapChans f).win = s.win :=
    by simp only [State.mapChans]
@[simp] theorem State.pins_mapChans (s : State) (f : ChanId → Channel → Channel) : (s.mapChans f).pins = s.pins :=
    by simp only [State.mapChans]

/-! ## raise -/

@[simp] theorem State.pending_raise (s : State) (a : Alert) : (s.raise a).pending = s.pending := rfl
@[simp] theorem State.eng_raise (s : State) (a : Alert) : (s.raise a).eng = s.eng := rfl
@[simp] theorem State.tb_raise (s : State) (a : Alert) : (s.raise a).tb = s.tb := rfl
@[simp] theorem State.params_raise (s : State) (a : Alert) : (s.raise a).params = s.params := rfl
@[simp] theorem State.cal_raise (s : State) (a : Alert) : (s.raise a).cal = s.cal := rfl
@[simp] theorem State.loader_raise (s : State) (a : Alert) : (s.raise a).loader = s.loader := rfl
@[simp] theorem State.chans_raise (s : State) (a : Alert) : (s.raise a).chans = s.chans := rfl
@[simp] theorem State.links_raise (s : State) (a : Alert) : (s.raise a).links = s.links := rfl
@[simp] theorem State.conv_raise (s : State) (a : Alert) : (s.raise a).conv = s.conv := rfl
@[simp] theorem State.wr_raise (s : State) (a : Alert) : (s.raise a).wr = s.wr := rfl
@[simp] theorem State.port_raise (s : State) (a : Alert) : (s.raise a).port = s.port := rfl
@[simp] theorem State.pins_raise (s : State) (a : Alert) : (s.raise a).pins = s.pins := rfl

/-! ## setClock -/

@[simp] theorem State.pending_setClock (s : State) (r : Nat) : (s.setClock r).pending = s.pending := rfl
@[simp] theorem State.eng_setClock (s : State) (r : Nat) : (s.setClock r).eng = s.eng := rfl
@[simp] theorem State.tb_setClock (s : State) (r : Nat) : (s.setClock r).tb = s.tb := rfl
@[simp] theorem State.params_setClock (s : State) (r : Nat) : (s.setClock r).params = s.params := rfl
@[simp] theorem State.cal_setClock (s : State) (r : Nat) : (s.setClock r).cal = s.cal := rfl
@[simp] theorem State.loader_setClock (s : State) (r : Nat) : (s.setClock r).loader = s.loader := rfl
@[simp] theorem State.chans_setClock (s : State) (r : Nat) : (s.setClock r).chans = s.chans := rfl
@[simp] theorem State.links_setClock (s : State) (r : Nat) : (s.setClock r).links = s.links := rfl
@[simp] theorem State.conv_setClock (s : State) (r : Nat) : (s.setClock r).conv = s.conv := rfl
@[simp] theorem State.wr_setClock (s : State) (r : Nat) : (s.setClock r).wr = s.wr := rfl
@[simp] theorem State.port_setClock (s : State) (r : Nat) : (s.setClock r).port = s.port := rfl
@[simp] theorem State.win_setClock (s : State) (r : Nat) : (s.setClock r).win = s.win := rfl

/-! ## setResult -/

@[simp] theorem State.pending_setResult (s : State) (r : CommandResult) : (s.setResult r).pending = s.pending := rfl
@[simp] theorem State.tb_setResult (s : State) (r : CommandResult) : (s.setResult r).tb = s.tb := rfl
@[simp] theorem State.params_setResult (s : State) (r : CommandResult) : (s.setResult r).params = s.params := rfl
@[simp] theorem State.cal_setResult (s : State) (r : CommandResult) : (s.setResult r).cal = s.cal := rfl
@[simp] theorem State.loader_setResult (s : State) (r : CommandResult) : (s.setResult r).loader = s.loader := rfl
@[simp] theorem State.chans_setResult (s : State) (r : CommandResult) : (s.setResult r).chans = s.chans := rfl
@[simp] theorem State.links_setResult (s : State) (r : CommandResult) : (s.setResult r).links = s.links := rfl
@[simp] theorem State.conv_setResult (s : State) (r : CommandResult) : (s.setResult r).conv = s.conv := rfl
@[simp] theorem State.wr_setResult (s : State) (r : CommandResult) : (s.setResult r).wr = s.wr := rfl
@[simp] theorem State.port_setResult (s : State) (r : CommandResult) : (s.setResult r).port = s.port := rfl
@[simp] theorem State.win_setResult (s : State) (r : CommandResult) : (s.setResult r).win = s.win := rfl
@[simp] theorem State.pins_setResult (s : State) (r : CommandResult) : (s.setResult r).pins = s.pins := rfl

/-! ## offer -/

@[simp] theorem State.pending_offer (s : State) (r : Rec) : (s.offer r).pending = s.pending := rfl
@[simp] theorem State.eng_offer (s : State) (r : Rec) : (s.offer r).eng = s.eng := rfl
@[simp] theorem State.tb_offer (s : State) (r : Rec) : (s.offer r).tb = s.tb := rfl
@[simp] theorem State.params_offer (s : State) (r : Rec) : (s.offer r).params = s.params := rfl
@[simp] theorem State.cal_offer (s : State) (r : Rec) : (s.offer r).cal = s.cal := rfl
@[simp] theorem State.loader_offer (s : State) (r : Rec) : (s.offer r).loader = s.loader := rfl
@[simp] theorem State.chans_offer (s : State) (r : Rec) : (s.offer r).chans = s.chans := rfl
@[simp] theorem State.links_offer (s : State) (r : Rec) : (s.offer r).links = s.links := rfl
@[simp] theorem State.conv_offer (s : State) (r : Rec) : (s.offer r).conv = s.conv := rfl
@[simp] theorem State.port_offer (s : State) (r : Rec) : (s.offer r).port = s.port := rfl
@[simp] theorem State.win_offer (s : State) (r : Rec) : (s.offer r).win = s.win := rfl
@[simp] theorem State.pins_offer (s : State) (r : Rec) : (s.offer r).pins = s.pins := rfl

/-! ## holdTimebase -/

@[simp] theorem State.pending_holdTimebase (s : State) : (s.holdTimebase).pending = s.pending := rfl
@[simp] theorem State.eng_holdTimebase (s : State) : (s.holdTimebase).eng = s.eng := rfl
@[simp] theorem State.params_holdTimebase (s : State) : (s.holdTimebase).params = s.params := rfl
@[simp] theorem State.cal_holdTimebase (s : State) : (s.holdTimebase).cal = s.cal := rfl
@[simp] theorem State.loader_holdTimebase (s : State) : (s.holdTimebase).loader = s.loader := rfl
@[simp] theorem State.chans_holdTimebase (s : State) : (s.holdTimebase).chans = s.chans := rfl
@[simp] theorem State.links_holdTimebase (s : State) : (s.holdTimebase).links = s.links := rfl
@[simp] theorem State.conv_holdTimebase (s : State) : (s.holdTimebase).conv = s.conv := rfl
@[simp] theorem State.wr_holdTimebase (s : State) : (s.holdTimebase).wr = s.wr := rfl
@[simp] theorem State.port_holdTimebase (s : State) : (s.holdTimebase).port = s.port := rfl
@[simp] theorem State.win_holdTimebase (s : State) : (s.holdTimebase).win = s.win := rfl
@[simp] theorem State.pins_holdTimebase (s : State) : (s.holdTimebase).pins = s.pins := rfl

/-! ## stopChannels -/

@[simp] theorem State.pending_stopChannels (s : State) : (s.stopChannels).pending = s.pending :=
    by simp only [State.stopChannels, State.mapChans]
@[simp] theorem State.eng_stopChannels (s : State) : (s.stopChannels).eng = s.eng :=
    by simp only [State.stopChannels, State.mapChans]
@[simp] theorem State.tb_stopChannels (s : State) : (s.stopChannels).tb = s.tb :=
    by simp only [State.stopChannels, State.mapChans]
@[simp] theorem State.params_stopChannels (s : State) : (s.stopChannels).params = s.params :=
    by simp only [State.stopChannels, State.mapChans]
@[simp] theorem State.cal_stopChannels (s : State) : (s.stopChannels).cal = s.cal :=
    by simp only [State.stopChannels, State.mapChans]
@[simp] theorem State.loader_stopChannels (s : State) : (s.stopChannels).loader = s.loader :=
    by simp only [State.stopChannels, State.mapChans]
@[simp] theorem State.links_stopChannels (s : State) : (s.stopChannels).links = s.links :=
    by simp only [State.stopChannels, State.mapChans]
@[simp] theorem State.conv_stopChannels (s : State) : (s.stopChannels).conv = s.conv :=
    by simp only [State.stopChannels, State.mapChans]
@[simp] theorem State.wr_stopChannels (s : State) : (s.stopChannels).wr = s.wr :=
    by simp only [State.stopChannels, State.mapChans]
@[simp] theorem State.port_stopChannels (s : State) : (s.stopChannels).port = s.port :=
    by simp only [State.stopChannels, State.mapChans]
@[simp] theorem State.win_stopChannels (s : State) : (s.stopChannels).win = s.win :=
    by simp only [State.stopChannels, State.mapChans]
@[simp] theorem State.pins_stopChannels (s : State) : (s.stopChannels).pins = s.pins :=
    by simp only [State.stopChannels, State.mapChans]

/-! ## lanesReread -/

@[simp] theorem State.pending_lanesReread (s : State) : (s.lanesReread).pending = s.pending := rfl
@[simp] theorem State.eng_lanesReread (s : State) : (s.lanesReread).eng = s.eng := rfl
@[simp] theorem State.tb_lanesReread (s : State) : (s.lanesReread).tb = s.tb := rfl
@[simp] theorem State.params_lanesReread (s : State) : (s.lanesReread).params = s.params := rfl
@[simp] theorem State.cal_lanesReread (s : State) : (s.lanesReread).cal = s.cal := rfl
@[simp] theorem State.chans_lanesReread (s : State) : (s.lanesReread).chans = s.chans := rfl
@[simp] theorem State.links_lanesReread (s : State) : (s.lanesReread).links = s.links := rfl
@[simp] theorem State.conv_lanesReread (s : State) : (s.lanesReread).conv = s.conv := rfl
@[simp] theorem State.wr_lanesReread (s : State) : (s.lanesReread).wr = s.wr := rfl
@[simp] theorem State.port_lanesReread (s : State) : (s.lanesReread).port = s.port := rfl
@[simp] theorem State.win_lanesReread (s : State) : (s.lanesReread).win = s.win := rfl
@[simp] theorem State.pins_lanesReread (s : State) : (s.lanesReread).pins = s.pins := rfl

/-! ## retire -/

@[simp] theorem State.pending_retire (s : State) (i : LaneId) (ref : Word) : (s.retire i ref).pending = s.pending := rfl
@[simp] theorem State.eng_retire (s : State) (i : LaneId) (ref : Word) : (s.retire i ref).eng = s.eng := rfl
@[simp] theorem State.tb_retire (s : State) (i : LaneId) (ref : Word) : (s.retire i ref).tb = s.tb := rfl
@[simp] theorem State.params_retire (s : State) (i : LaneId) (ref : Word) : (s.retire i ref).params = s.params := rfl
@[simp] theorem State.cal_retire (s : State) (i : LaneId) (ref : Word) : (s.retire i ref).cal = s.cal := rfl
@[simp] theorem State.chans_retire (s : State) (i : LaneId) (ref : Word) : (s.retire i ref).chans = s.chans := rfl
@[simp] theorem State.links_retire (s : State) (i : LaneId) (ref : Word) : (s.retire i ref).links = s.links := rfl
@[simp] theorem State.conv_retire (s : State) (i : LaneId) (ref : Word) : (s.retire i ref).conv = s.conv := rfl
@[simp] theorem State.wr_retire (s : State) (i : LaneId) (ref : Word) : (s.retire i ref).wr = s.wr := rfl
@[simp] theorem State.port_retire (s : State) (i : LaneId) (ref : Word) : (s.retire i ref).port = s.port := rfl
@[simp] theorem State.win_retire (s : State) (i : LaneId) (ref : Word) : (s.retire i ref).win = s.win := rfl
@[simp] theorem State.pins_retire (s : State) (i : LaneId) (ref : Word) : (s.retire i ref).pins = s.pins := rfl

/-! ## startLine -/

@[simp] theorem State.pending_startLine (s : State) (l : Level) : (s.startLine l).pending = s.pending := rfl
@[simp] theorem State.eng_startLine (s : State) (l : Level) : (s.startLine l).eng = s.eng := rfl
@[simp] theorem State.tb_startLine (s : State) (l : Level) : (s.startLine l).tb = s.tb := rfl
@[simp] theorem State.params_startLine (s : State) (l : Level) : (s.startLine l).params = s.params := rfl
@[simp] theorem State.cal_startLine (s : State) (l : Level) : (s.startLine l).cal = s.cal := rfl
@[simp] theorem State.loader_startLine (s : State) (l : Level) : (s.startLine l).loader = s.loader := rfl
@[simp] theorem State.chans_startLine (s : State) (l : Level) : (s.startLine l).chans = s.chans := rfl
@[simp] theorem State.links_startLine (s : State) (l : Level) : (s.startLine l).links = s.links := rfl
@[simp] theorem State.conv_startLine (s : State) (l : Level) : (s.startLine l).conv = s.conv := rfl
@[simp] theorem State.wr_startLine (s : State) (l : Level) : (s.startLine l).wr = s.wr := rfl
@[simp] theorem State.port_startLine (s : State) (l : Level) : (s.startLine l).port = s.port := rfl
@[simp] theorem State.win_startLine (s : State) (l : Level) : (s.startLine l).win = s.win := rfl

/-! ## inputLine -/

@[simp] theorem State.pending_inputLine (s : State) (ch : ChanId) (l : Level) : (s.inputLine ch l).pending = s.pending := rfl
@[simp] theorem State.eng_inputLine (s : State) (ch : ChanId) (l : Level) : (s.inputLine ch l).eng = s.eng := rfl
@[simp] theorem State.tb_inputLine (s : State) (ch : ChanId) (l : Level) : (s.inputLine ch l).tb = s.tb := rfl
@[simp] theorem State.params_inputLine (s : State) (ch : ChanId) (l : Level) : (s.inputLine ch l).params = s.params := rfl
@[simp] theorem State.cal_inputLine (s : State) (ch : ChanId) (l : Level) : (s.inputLine ch l).cal = s.cal := rfl
@[simp] theorem State.loader_inputLine (s : State) (ch : ChanId) (l : Level) : (s.inputLine ch l).loader = s.loader := rfl
@[simp] theorem State.chans_inputLine (s : State) (ch : ChanId) (l : Level) : (s.inputLine ch l).chans = s.chans := rfl
@[simp] theorem State.links_inputLine (s : State) (ch : ChanId) (l : Level) : (s.inputLine ch l).links = s.links := rfl
@[simp] theorem State.conv_inputLine (s : State) (ch : ChanId) (l : Level) : (s.inputLine ch l).conv = s.conv := rfl
@[simp] theorem State.wr_inputLine (s : State) (ch : ChanId) (l : Level) : (s.inputLine ch l).wr = s.wr := rfl
@[simp] theorem State.port_inputLine (s : State) (ch : ChanId) (l : Level) : (s.inputLine ch l).port = s.port := rfl
@[simp] theorem State.win_inputLine (s : State) (ch : ChanId) (l : Level) : (s.inputLine ch l).win = s.win := rfl

/-! ## presentOutputs -/

@[simp] theorem State.pending_presentOutputs (s : State) : (s.presentOutputs).pending = s.pending :=
    by simp only [State.presentOutputs]
@[simp] theorem State.eng_presentOutputs (s : State) : (s.presentOutputs).eng = s.eng :=
    by simp only [State.presentOutputs]
@[simp] theorem State.tb_presentOutputs (s : State) : (s.presentOutputs).tb = s.tb :=
    by simp only [State.presentOutputs]
@[simp] theorem State.params_presentOutputs (s : State) : (s.presentOutputs).params = s.params :=
    by simp only [State.presentOutputs]
@[simp] theorem State.cal_presentOutputs (s : State) : (s.presentOutputs).cal = s.cal :=
    by simp only [State.presentOutputs]
@[simp] theorem State.loader_presentOutputs (s : State) : (s.presentOutputs).loader = s.loader :=
    by simp only [State.presentOutputs]
@[simp] theorem State.chans_presentOutputs (s : State) : (s.presentOutputs).chans = s.chans :=
    by simp only [State.presentOutputs]
@[simp] theorem State.links_presentOutputs (s : State) : (s.presentOutputs).links = s.links :=
    by simp only [State.presentOutputs]
@[simp] theorem State.conv_presentOutputs (s : State) : (s.presentOutputs).conv = s.conv :=
    by simp only [State.presentOutputs]
@[simp] theorem State.wr_presentOutputs (s : State) : (s.presentOutputs).wr = s.wr :=
    by simp only [State.presentOutputs]
@[simp] theorem State.port_presentOutputs (s : State) : (s.presentOutputs).port = s.port :=
    by simp only [State.presentOutputs]
@[simp] theorem State.win_presentOutputs (s : State) : (s.presentOutputs).win = s.win :=
    by simp only [State.presentOutputs]

/-! ## What each of them sets -/

@[simp] theorem State.alert_raise (s : State) (a : Alert) : (s.raise a).win.alert = s.win.alert ||| a.mask := rfl
@[simp] theorem State.base_raise (s : State) (a : Alert) : (s.raise a).win.base = s.win.base := rfl
@[simp] theorem State.enable_raise (s : State) (a : Alert) : (s.raise a).win.enable = s.win.enable := rfl
@[simp] theorem State.timeHi_raise (s : State) (a : Alert) : (s.raise a).win.timeHi = s.win.timeHi := rfl
@[simp] theorem State.busRead_raise (s : State) (a : Alert) : (s.raise a).win.busRead = s.win.busRead := rfl
@[simp] theorem State.result_setResult (s : State) (r : CommandResult) : (s.setResult r).eng.result = r := rfl
@[simp] theorem State.state_setResult (s : State) (r : CommandResult) : (s.setResult r).eng.state = s.eng.state := rfl
@[simp] theorem State.session_setResult (s : State) (r : CommandResult) : (s.setResult r).eng.session = s.eng.session := rfl
@[simp] theorem State.resetPending_setResult (s : State) (r : CommandResult) :
    (s.setResult r).eng.resetPending = s.eng.resetPending := rfl
@[simp] theorem State.refClock_setClock (s : State) (r : Nat) : (s.setClock r).pins.refClock = s.clockAt r := rfl
@[simp] theorem State.tout_setClock (s : State) (r : Nat) : (s.setClock r).pins.tout = s.pins.tout := rfl
@[simp] theorem State.resetHeld_setClock (s : State) (r : Nat) : (s.setClock r).pins.resetHeld = s.pins.resetHeld := rfl
@[simp] theorem State.resetHeld_startLine (s : State) (l : Level) : (s.startLine l).pins.resetHeld = s.pins.resetHeld := rfl
@[simp] theorem State.resetHeld_inputLine (s : State) (ch : ChanId) (l : Level) :
    (s.inputLine ch l).pins.resetHeld = s.pins.resetHeld := rfl
@[simp] theorem State.wr_offer (s : State) (r : Rec) : (s.offer r).wr = s.wr.offer s.now r := rfl
@[simp] theorem State.runs_holdTimebase (s : State) : s.holdTimebase.tb.runs = false := rfl
@[simp] theorem State.count_holdTimebase (s : State) : s.holdTimebase.tb.count = s.tb.count := rfl
@[simp] theorem State.now_offer (s : State) (r : Rec) : (s.offer r).now = s.now := rfl
@[simp] theorem State.chan_stopChannels (s : State) (i : ChanId) : s.stopChannels.chan i = (s.chan i).sessionStop := by
  simp [State.stopChannels]

/-! ## The port's requests -/

@[simp] theorem Port.request_setRequest_same (p : Port) (r : Requester) (q : PortRequest) :
    (p.setRequest r q).request r = q := by
  cases r <;> rfl

theorem Port.request_setRequest_ne (p : Port) {r r' : Requester} (q : PortRequest) (h : r ≠ r') :
    (p.setRequest r q).request r' = p.request r' := by
  cases r <;> cases r' <;> first | rfl | exact absurd rfl h

@[simp] theorem Port.window_setRequest (p : Port) (r : Requester) (q : PortRequest) :
    (p.setRequest r q).window = p.window := by
  cases r <;> rfl

@[simp] theorem Port.path_setRequest (p : Port) (r : Requester) (q : PortRequest) :
    (p.setRequest r q).path = p.path := by
  cases r <;> rfl

@[simp] theorem Port.lastServed_setRequest (p : Port) (r : Requester) (q : PortRequest) :
    (p.setRequest r q).lastServed = p.lastServed := by
  cases r <;> rfl

@[simp] theorem Port.quiet_setRequest (p : Port) (r : Requester) (q : PortRequest) :
    (p.setRequest r q).quiet = p.quiet := by
  cases r <;> rfl

@[simp] theorem Port.issue_setRequest (p : Port) (r r' : Requester) (q : PortRequest) :
    (p.setRequest r q).issue r' = p.issue r' := by
  cases r <;> cases r' <;> rfl

@[simp] theorem Port.request_setIssue (p : Port) (r r' : Requester) (n : Byte) :
    (p.setIssue r n).request r' = p.request r' := by
  cases r <;> cases r' <;> rfl

@[simp] theorem Port.issue_setIssue_same (p : Port) (r : Requester) (n : Byte) : (p.setIssue r n).issue r = n := by
  cases r <;> rfl

@[simp] theorem PortRequest.isOutstanding_withdrawn (q : PortRequest) : q.withdrawn.isOutstanding = q.isOutstanding := by
  cases q <;> rfl

@[simp] theorem PortRequest.isWaiting_withdrawn (q : PortRequest) : q.withdrawn.isWaiting = false := by
  cases q <;> rfl

end Sys2Proof.Machine
end

