-- ==== Sys2Proof/Laws/Channels.lean ====
section
/-! SUPPORT. Laws/Channels.lean: what the operations of one channel leave and what they set, once each. -/

namespace Sys2Proof.Machine

/-- Taking staged marks changes the settings' marks and the staged marks alone (R70). -/
@[simp] theorem Channel.takeMarks_frame (c : Channel) :
    c.takeMarks.mode = c.mode ∧ c.takeMarks.restLevel = c.restLevel ∧ c.takeMarks.counter = c.counter ∧
      c.takeMarks.wrapCount = c.wrapCount ∧ c.takeMarks.output = c.output ∧ c.takeMarks.tag = c.tag ∧
      c.takeMarks.phase = c.phase ∧ c.takeMarks.restart = c.restart ∧ c.takeMarks.pausedFrom = c.pausedFrom ∧
      c.takeMarks.lastSample = c.lastSample ∧ c.takeMarks.arrived = c.arrived ∧
      c.takeMarks.resumed = c.resumed := by
  unfold Channel.takeMarks
  split <;> simp

/-- The settings after the staged marks are taken depend on the settings and the staged marks alone. -/
theorem Channel.takeMarks_settings (c : Channel) :
    c.takeMarks.settings = c.settings.map fun st =>
      match c.staged with
      | some m => st.withMarks m
      | none => st := by
  unfold Channel.takeMarks
  cases c.staged <;> cases h : c.settings <;> simp [h]

/-- With settings present no staged marks are left. -/
theorem Channel.takeMarks_staged {c : Channel} {st : Settings} (h : c.settings = some st) :
    c.takeMarks.staged = none := by
  unfold Channel.takeMarks
  cases h₁ : c.staged <;> simp [h, h₁]

/-- A wrap event: the counter is 0, the wrap count rises, the staged marks are taken, and the shape of the settings
then in force sets the output (R60). -/
theorem Channel.wrap_spec (c : Channel) :
    c.wrap.counter = 0 ∧ c.wrap.wrapCount = c.wrapCount + 1 ∧ c.wrap.settings = c.takeMarks.settings ∧
      c.wrap.staged = c.takeMarks.staged ∧ c.wrap.mode = c.mode ∧ c.wrap.pausedFrom = c.pausedFrom ∧
      c.wrap.restLevel = c.restLevel ∧ c.wrap.tag = c.tag ∧ c.wrap.phase = c.phase ∧ c.wrap.restart = c.restart ∧
      c.wrap.lastSample = c.lastSample ∧ c.wrap.arrived = c.arrived ∧ c.wrap.resumed = c.resumed ∧
      (∀ st, c.takeMarks.settings = some st →
        c.wrap.output = if st.shape = .wave then st.waveStart else c.output) := by
  have hs : ({ c with counter := 0, wrapCount := c.wrapCount + 1 } : Channel).takeMarks =
      { c.takeMarks with counter := 0, wrapCount := c.wrapCount + 1 } := by
    rcases c with ⟨_, settings, _, staged, _, _, _, _, _, _, _, _, _⟩
    cases settings <;> cases staged <;> rfl
  unfold Channel.wrap
  simp only [hs]
  generalize ht : c.takeMarks = t
  have hf := c.takeMarks_frame
  rw [ht] at hf
  obtain ⟨h1, h2, -, -, h5, h6, h7, h8, h9, h10, h11⟩ := hf
  cases hset : t.settings with
  | none => simp [*]
  | some st => by_cases hw : st.shape = .wave <;> simp [*]

/-- An A-match event changes the output and, for a ONE_SHOT channel, the channel state (R61). -/
@[simp] theorem Channel.aMatch_frame (c : Channel) (st : Settings) :
    (c.aMatch st).settings = c.settings ∧ (c.aMatch st).restLevel = c.restLevel ∧ (c.aMatch st).staged = c.staged ∧
      (c.aMatch st).counter = c.counter ∧ (c.aMatch st).wrapCount = c.wrapCount ∧ (c.aMatch st).tag = c.tag ∧
      (c.aMatch st).phase = c.phase ∧ (c.aMatch st).restart = c.restart ∧
      (c.aMatch st).pausedFrom = c.pausedFrom ∧ (c.aMatch st).lastSample = c.lastSample ∧
      (c.aMatch st).arrived = c.arrived ∧ (c.aMatch st).resumed = c.resumed := by
  unfold Channel.aMatch
  (repeat' split) <;> simp

/-- A wrap limit is 1 to 65536 (R58). -/
theorem Settings.wrapLimit_range {st : Settings} {l : Nat} (h : st.wrapLimit = some l) : 1 ≤ l ∧ l ≤ 65536 := by
  have hp := st.period.isLt
  have ha := st.action.isLt
  have hz : st.period.toNat = 0 → st.period = 0 := fun h' => BitVec.eq_of_toNat_eq h'
  unfold Settings.wrapLimit at h
  (repeat' split at h) <;> simp at h <;> try omega
  all_goals
    rename_i hne
    have := mt hz hne
    omega

end Sys2Proof.Machine
end

