-- ==== Sys2Proof/Laws/Frame.lean ====
section
/-! SUPPORT. Laws/Frame.lean: for each shared operation, one lemma that says all the parts of State it leaves as they
are. Of a part it changes only in part, the fields it leaves are said: BASE, ALERT_ENABLE, TIME_HI and busRead of the
register window, and of Engine Control the session number, the command result, the control block address, reset
pending and the last START sample. -/

namespace Sys2Proof.Machine

@[simp] theorem State.offerAll_frame (s : State) (l : List Rec) :
    (s.offerAll l).pending = s.pending ∧ (s.offerAll l).eng = s.eng ∧
      (s.offerAll l).tb = s.tb ∧ (s.offerAll l).params = s.params ∧
      (s.offerAll l).cal = s.cal ∧ (s.offerAll l).loader = s.loader ∧
      (s.offerAll l).chans = s.chans ∧ (s.offerAll l).links = s.links ∧
      (s.offerAll l).conv = s.conv ∧ (s.offerAll l).port = s.port ∧
      (s.offerAll l).win = s.win ∧ (s.offerAll l).pins = s.pins := by
  induction l generalizing s with
  | nil => simp [State.offerAll]
  | cons x rest ih => simp [State.offerAll, ih]

@[simp] theorem State.laneFault_frame (s : State) (i : LaneId) (c : LaneFaultCause) (a : Word) :
    (s.laneFault i c a).pending = s.pending ∧ (s.laneFault i c a).eng = s.eng ∧
      (s.laneFault i c a).tb = s.tb ∧ (s.laneFault i c a).params = s.params ∧
      (s.laneFault i c a).cal = s.cal ∧ (s.laneFault i c a).chans = s.chans ∧
      (s.laneFault i c a).links = s.links ∧ (s.laneFault i c a).conv = s.conv ∧
      (s.laneFault i c a).port = s.port ∧ (s.laneFault i c a).win.base = s.win.base ∧
      (s.laneFault i c a).win.enable = s.win.enable ∧ (s.laneFault i c a).win.timeHi = s.win.timeHi ∧
      (s.laneFault i c a).win.busRead = s.win.busRead ∧ (s.laneFault i c a).pins = s.pins := by
  simp only [State.laneFault]
  simp

@[simp] theorem State.moveOn_frame (s : State) (i : LaneId) :
    (s.moveOn i).pending = s.pending ∧ (s.moveOn i).eng = s.eng ∧
      (s.moveOn i).tb = s.tb ∧ (s.moveOn i).params = s.params ∧
      (s.moveOn i).cal = s.cal ∧ (s.moveOn i).chans = s.chans ∧
      (s.moveOn i).links = s.links ∧ (s.moveOn i).conv = s.conv ∧
      (s.moveOn i).port = s.port ∧ (s.moveOn i).win.base = s.win.base ∧
      (s.moveOn i).win.enable = s.win.enable ∧ (s.moveOn i).win.timeHi = s.win.timeHi ∧
      (s.moveOn i).win.busRead = s.win.busRead ∧ (s.moveOn i).pins = s.pins := by
  simp only [State.moveOn]
  (repeat' split) <;> simp

@[simp] theorem State.headerRead_frame (s : State) (i : LaneId) (h : SegmentHeader) :
    (s.headerRead i h).pending = s.pending ∧ (s.headerRead i h).eng = s.eng ∧
      (s.headerRead i h).tb = s.tb ∧ (s.headerRead i h).params = s.params ∧
      (s.headerRead i h).cal = s.cal ∧ (s.headerRead i h).chans = s.chans ∧
      (s.headerRead i h).links = s.links ∧ (s.headerRead i h).conv = s.conv ∧
      (s.headerRead i h).port = s.port ∧ (s.headerRead i h).win.base = s.win.base ∧
      (s.headerRead i h).win.enable = s.win.enable ∧ (s.headerRead i h).win.timeHi = s.win.timeHi ∧
      (s.headerRead i h).win.busRead = s.win.busRead ∧ (s.headerRead i h).pins = s.pins := by
  simp only [State.headerRead]
  (repeat' split) <;> simp

@[simp] theorem State.rejectCue_frame (s : State) (i : LaneId) (d : BusData) (o : HeldOutcome) (c : Option Cue) :
    (s.rejectCue i d o c).pending = s.pending ∧ (s.rejectCue i d o c).eng = s.eng ∧
      (s.rejectCue i d o c).tb = s.tb ∧ (s.rejectCue i d o c).params = s.params ∧
      (s.rejectCue i d o c).cal = s.cal ∧ (s.rejectCue i d o c).chans = s.chans ∧
      (s.rejectCue i d o c).links = s.links ∧ (s.rejectCue i d o c).conv = s.conv ∧
      (s.rejectCue i d o c).port = s.port ∧ (s.rejectCue i d o c).win.base = s.win.base ∧
      (s.rejectCue i d o c).win.enable = s.win.enable ∧ (s.rejectCue i d o c).win.timeHi = s.win.timeHi ∧
      (s.rejectCue i d o c).win.busRead = s.win.busRead ∧ (s.rejectCue i d o c).pins = s.pins := by
  simp only [State.rejectCue]
  simp

@[simp] theorem State.acceptCue_frame (s : State) (i : LaneId) (c : Cue) :
    (s.acceptCue i c).pending = s.pending ∧ (s.acceptCue i c).eng = s.eng ∧
      (s.acceptCue i c).tb = s.tb ∧ (s.acceptCue i c).params = s.params ∧
      (s.acceptCue i c).cal = s.cal ∧ (s.acceptCue i c).chans = s.chans ∧
      (s.acceptCue i c).links = s.links ∧ (s.acceptCue i c).conv = s.conv ∧
      (s.acceptCue i c).wr = s.wr ∧ (s.acceptCue i c).port = s.port ∧
      (s.acceptCue i c).win = s.win ∧ (s.acceptCue i c).pins = s.pins := by
  simp only [State.acceptCue]
  simp

@[simp] theorem State.fetchCue_frame (s : State) (i : LaneId) (d : BusData) :
    (s.fetchCue i d).pending = s.pending ∧ (s.fetchCue i d).eng = s.eng ∧
      (s.fetchCue i d).tb = s.tb ∧ (s.fetchCue i d).params = s.params ∧
      (s.fetchCue i d).cal = s.cal ∧ (s.fetchCue i d).chans = s.chans ∧
      (s.fetchCue i d).links = s.links ∧ (s.fetchCue i d).conv = s.conv ∧
      (s.fetchCue i d).port = s.port ∧ (s.fetchCue i d).win.base = s.win.base ∧
      (s.fetchCue i d).win.enable = s.win.enable ∧ (s.fetchCue i d).win.timeHi = s.win.timeHi ∧
      (s.fetchCue i d).win.busRead = s.win.busRead ∧ (s.fetchCue i d).pins = s.pins := by
  simp only [State.fetchCue]
  (repeat' split) <;> simp

@[simp] theorem State.laneEnded_frame (s : State) (i : LaneId) :
    (s.laneEnded i).pending = s.pending ∧ (s.laneEnded i).eng = s.eng ∧
      (s.laneEnded i).tb = s.tb ∧ (s.laneEnded i).params = s.params ∧
      (s.laneEnded i).cal = s.cal ∧ (s.laneEnded i).chans = s.chans ∧
      (s.laneEnded i).links = s.links ∧ (s.laneEnded i).conv = s.conv ∧
      (s.laneEnded i).port = s.port ∧ (s.laneEnded i).win.base = s.win.base ∧
      (s.laneEnded i).win.enable = s.win.enable ∧ (s.laneEnded i).win.timeHi = s.win.timeHi ∧
      (s.laneEnded i).win.busRead = s.win.busRead ∧ (s.laneEnded i).pins = s.pins := by
  simp only [State.laneEnded]
  (repeat' split) <;> simp

@[simp] theorem State.statusWritten_frame (s : State) (i : LaneId) :
    (s.statusWritten i).pending = s.pending ∧ (s.statusWritten i).eng = s.eng ∧
      (s.statusWritten i).tb = s.tb ∧ (s.statusWritten i).params = s.params ∧
      (s.statusWritten i).cal = s.cal ∧ (s.statusWritten i).chans = s.chans ∧
      (s.statusWritten i).links = s.links ∧ (s.statusWritten i).conv = s.conv ∧
      (s.statusWritten i).port = s.port ∧ (s.statusWritten i).win.base = s.win.base ∧
      (s.statusWritten i).win.enable = s.win.enable ∧ (s.statusWritten i).win.timeHi = s.win.timeHi ∧
      (s.statusWritten i).win.busRead = s.win.busRead ∧ (s.statusWritten i).pins = s.pins := by
  simp only [State.statusWritten]
  (repeat' split) <;> simp

@[simp] theorem State.laneAnswer_frame (s : State) (acc : LaneAccess) (a : Answer) :
    (s.laneAnswer acc a).pending = s.pending ∧ (s.laneAnswer acc a).eng = s.eng ∧
      (s.laneAnswer acc a).tb = s.tb ∧ (s.laneAnswer acc a).params = s.params ∧
      (s.laneAnswer acc a).cal = s.cal ∧ (s.laneAnswer acc a).chans = s.chans ∧
      (s.laneAnswer acc a).links = s.links ∧ (s.laneAnswer acc a).conv = s.conv ∧
      (s.laneAnswer acc a).port = s.port ∧ (s.laneAnswer acc a).win.base = s.win.base ∧
      (s.laneAnswer acc a).win.enable = s.win.enable ∧ (s.laneAnswer acc a).win.timeHi = s.win.timeHi ∧
      (s.laneAnswer acc a).win.busRead = s.win.busRead ∧ (s.laneAnswer acc a).pins = s.pins := by
  simp only [State.laneAnswer]
  (repeat' split) <;> simp

@[simp] theorem State.loaderAnswer_frame (s : State) (a : Answer) :
    (s.loaderAnswer a).pending = s.pending ∧ (s.loaderAnswer a).eng = s.eng ∧
      (s.loaderAnswer a).tb = s.tb ∧ (s.loaderAnswer a).params = s.params ∧
      (s.loaderAnswer a).cal = s.cal ∧ (s.loaderAnswer a).chans = s.chans ∧
      (s.loaderAnswer a).links = s.links ∧ (s.loaderAnswer a).conv = s.conv ∧
      (s.loaderAnswer a).port = s.port ∧ (s.loaderAnswer a).win.base = s.win.base ∧
      (s.loaderAnswer a).win.enable = s.win.enable ∧ (s.loaderAnswer a).win.timeHi = s.win.timeHi ∧
      (s.loaderAnswer a).win.busRead = s.win.busRead ∧ (s.loaderAnswer a).pins = s.pins := by
  simp only [State.loaderAnswer]
  (repeat' split) <;> simp

@[simp] theorem State.stopLane_frame (s : State) (i : LaneId) (n : Nat) :
    (s.stopLane i n).pending = s.pending ∧ (s.stopLane i n).eng = s.eng ∧
      (s.stopLane i n).tb = s.tb ∧ (s.stopLane i n).params = s.params ∧
      (s.stopLane i n).cal = s.cal ∧ (s.stopLane i n).chans = s.chans ∧
      (s.stopLane i n).links = s.links ∧ (s.stopLane i n).conv = s.conv ∧
      (s.stopLane i n).port = s.port ∧ (s.stopLane i n).win = s.win ∧
      (s.stopLane i n).pins = s.pins := by
  simp only [State.stopLane]
  (repeat' split) <;> simp

@[simp] theorem State.stopLanes_frame (s : State) (cal : List Entry) :
    (s.stopLanes cal).pending = s.pending ∧ (s.stopLanes cal).eng = s.eng ∧
      (s.stopLanes cal).tb = s.tb ∧ (s.stopLanes cal).params = s.params ∧
      (s.stopLanes cal).cal = s.cal ∧ (s.stopLanes cal).chans = s.chans ∧
      (s.stopLanes cal).links = s.links ∧ (s.stopLanes cal).conv = s.conv ∧
      (s.stopLanes cal).port = s.port ∧ (s.stopLanes cal).win = s.win ∧
      (s.stopLanes cal).pins = s.pins := by
  simp only [State.stopLanes]
  simp

@[simp] theorem State.withdrawLoader_frame (s : State) :
    (s.withdrawLoader).pending = s.pending ∧ (s.withdrawLoader).eng = s.eng ∧
      (s.withdrawLoader).tb = s.tb ∧ (s.withdrawLoader).params = s.params ∧
      (s.withdrawLoader).cal = s.cal ∧ (s.withdrawLoader).chans = s.chans ∧
      (s.withdrawLoader).links = s.links ∧ (s.withdrawLoader).conv = s.conv ∧
      (s.withdrawLoader).wr = s.wr ∧ (s.withdrawLoader).win = s.win ∧
      (s.withdrawLoader).pins = s.pins := by
  simp only [State.withdrawLoader]
  (repeat' split) <;> simp

@[simp] theorem State.cancelEntries_frame (s : State) (l : List Entry) :
    (s.cancelEntries l).pending = s.pending ∧ (s.cancelEntries l).eng = s.eng ∧
      (s.cancelEntries l).tb = s.tb ∧ (s.cancelEntries l).params = s.params ∧
      (s.cancelEntries l).cal = s.cal ∧ (s.cancelEntries l).chans = s.chans ∧
      (s.cancelEntries l).links = s.links ∧ (s.cancelEntries l).conv = s.conv ∧
      (s.cancelEntries l).wr = s.wr ∧ (s.cancelEntries l).port = s.port ∧
      (s.cancelEntries l).win = s.win ∧ (s.cancelEntries l).pins = s.pins := by
  induction l generalizing s with
  | nil => simp [State.cancelEntries]
  | cons x rest ih => simp [State.cancelEntries, ih]

@[simp] theorem State.cancelCalendar_frame (s : State) :
    (s.cancelCalendar).pending = s.pending ∧ (s.cancelCalendar).eng = s.eng ∧
      (s.cancelCalendar).tb = s.tb ∧ (s.cancelCalendar).params = s.params ∧
      (s.cancelCalendar).chans = s.chans ∧ (s.cancelCalendar).links = s.links ∧
      (s.cancelCalendar).conv = s.conv ∧ (s.cancelCalendar).wr = s.wr ∧
      (s.cancelCalendar).port = s.port ∧ (s.cancelCalendar).win = s.win ∧
      (s.cancelCalendar).pins = s.pins := by
  simp only [State.cancelCalendar]
  simp

@[simp] theorem State.cancelCues_frame (s : State) :
    (s.cancelCues).pending = s.pending ∧ (s.cancelCues).eng = s.eng ∧
      (s.cancelCues).tb = s.tb ∧ (s.cancelCues).params = s.params ∧
      (s.cancelCues).chans = s.chans ∧ (s.cancelCues).links = s.links ∧
      (s.cancelCues).conv = s.conv ∧ (s.cancelCues).port = s.port ∧
      (s.cancelCues).win = s.win ∧ (s.cancelCues).pins = s.pins := by
  simp only [State.cancelCues]
  simp

@[simp] theorem State.drainConverter_frame (s : State) :
    (s.drainConverter).pending = s.pending ∧ (s.drainConverter).eng.session = s.eng.session ∧
      (s.drainConverter).eng.result = s.eng.result ∧ (s.drainConverter).eng.cba = s.eng.cba ∧
      (s.drainConverter).eng.resetPending = s.eng.resetPending ∧ (s.drainConverter).eng.lastStart = s.eng.lastStart ∧
      (s.drainConverter).tb = s.tb ∧ (s.drainConverter).params = s.params ∧
      (s.drainConverter).cal = s.cal ∧ (s.drainConverter).loader = s.loader ∧
      (s.drainConverter).chans = s.chans ∧ (s.drainConverter).links = s.links ∧
      (s.drainConverter).port = s.port ∧ (s.drainConverter).win = s.win ∧
      (s.drainConverter).pins = s.pins := by
  simp only [State.drainConverter]
  simp

@[simp] theorem State.abortConverter_frame (s : State) :
    (s.abortConverter).pending = s.pending ∧ (s.abortConverter).eng.session = s.eng.session ∧
      (s.abortConverter).eng.result = s.eng.result ∧ (s.abortConverter).eng.cba = s.eng.cba ∧
      (s.abortConverter).eng.resetPending = s.eng.resetPending ∧ (s.abortConverter).eng.lastStart = s.eng.lastStart ∧
      (s.abortConverter).tb = s.tb ∧ (s.abortConverter).params = s.params ∧
      (s.abortConverter).cal = s.cal ∧ (s.abortConverter).loader = s.loader ∧
      (s.abortConverter).chans = s.chans ∧ (s.abortConverter).links = s.links ∧
      (s.abortConverter).port = s.port ∧ (s.abortConverter).win = s.win ∧
      (s.abortConverter).pins = s.pins := by
  simp only [State.abortConverter]
  simp

@[simp] theorem State.restartStarveCount_frame (s : State) :
    (s.restartStarveCount).pending = s.pending ∧ (s.restartStarveCount).eng = s.eng ∧
      (s.restartStarveCount).tb = s.tb ∧ (s.restartStarveCount).params = s.params ∧
      (s.restartStarveCount).cal = s.cal ∧ (s.restartStarveCount).loader = s.loader ∧
      (s.restartStarveCount).chans = s.chans ∧ (s.restartStarveCount).links = s.links ∧
      (s.restartStarveCount).conv = s.conv ∧ (s.restartStarveCount).port = s.port ∧
      (s.restartStarveCount).win = s.win ∧ (s.restartStarveCount).pins = s.pins := by
  simp only [State.restartStarveCount]
  (repeat' split) <;> simp

@[simp] theorem State.stopBlocks_frame (s : State) :
    (s.stopBlocks).pending = s.pending ∧ (s.stopBlocks).eng.session = s.eng.session ∧
      (s.stopBlocks).eng.result = s.eng.result ∧ (s.stopBlocks).eng.cba = s.eng.cba ∧
      (s.stopBlocks).eng.resetPending = s.eng.resetPending ∧ (s.stopBlocks).eng.lastStart = s.eng.lastStart ∧
      (s.stopBlocks).tb = s.tb ∧ (s.stopBlocks).params = s.params ∧
      (s.stopBlocks).links = s.links ∧ (s.stopBlocks).win = s.win ∧
      (s.stopBlocks).pins = s.pins := by
  simp only [State.stopBlocks]
  simp

@[simp] theorem State.beginDrain_frame (s : State) (c : EndCause) :
    (s.beginDrain c).pending = s.pending ∧ (s.beginDrain c).eng.session = s.eng.session ∧
      (s.beginDrain c).eng.result = s.eng.result ∧ (s.beginDrain c).eng.cba = s.eng.cba ∧
      (s.beginDrain c).eng.resetPending = s.eng.resetPending ∧ (s.beginDrain c).eng.lastStart = s.eng.lastStart ∧
      (s.beginDrain c).tb = s.tb ∧ (s.beginDrain c).params = s.params ∧
      (s.beginDrain c).links = s.links ∧ (s.beginDrain c).port = s.port ∧
      (s.beginDrain c).win = s.win ∧ (s.beginDrain c).pins = s.pins := by
  simp only [State.beginDrain]
  simp

@[simp] theorem State.writerComplete_frame (s : State) :
    (s.writerComplete).pending = s.pending ∧ (s.writerComplete).eng.session = s.eng.session ∧
      (s.writerComplete).eng.result = s.eng.result ∧ (s.writerComplete).eng.cba = s.eng.cba ∧
      (s.writerComplete).eng.resetPending = s.eng.resetPending ∧ (s.writerComplete).eng.lastStart = s.eng.lastStart ∧
      (s.writerComplete).tb = s.tb ∧ (s.writerComplete).params = s.params ∧
      (s.writerComplete).cal = s.cal ∧ (s.writerComplete).loader = s.loader ∧
      (s.writerComplete).chans = s.chans ∧ (s.writerComplete).links = s.links ∧
      (s.writerComplete).conv = s.conv ∧ (s.writerComplete).port = s.port ∧
      (s.writerComplete).win = s.win ∧ (s.writerComplete).pins = s.pins := by
  simp only [State.writerComplete]
  simp

@[simp] theorem State.withdrawWriter_frame (s : State) :
    (s.withdrawWriter).pending = s.pending ∧ (s.withdrawWriter).eng = s.eng ∧
      (s.withdrawWriter).tb = s.tb ∧ (s.withdrawWriter).params = s.params ∧
      (s.withdrawWriter).cal = s.cal ∧ (s.withdrawWriter).loader = s.loader ∧
      (s.withdrawWriter).chans = s.chans ∧ (s.withdrawWriter).links = s.links ∧
      (s.withdrawWriter).conv = s.conv ∧ (s.withdrawWriter).win = s.win ∧
      (s.withdrawWriter).pins = s.pins := by
  simp only [State.withdrawWriter]
  (repeat' split) <;> simp

@[simp] theorem State.writerAbortEnd_frame (s : State) :
    (s.writerAbortEnd).pending = s.pending ∧ (s.writerAbortEnd).eng.session = s.eng.session ∧
      (s.writerAbortEnd).eng.result = s.eng.result ∧ (s.writerAbortEnd).eng.cba = s.eng.cba ∧
      (s.writerAbortEnd).eng.resetPending = s.eng.resetPending ∧ (s.writerAbortEnd).eng.lastStart = s.eng.lastStart ∧
      (s.writerAbortEnd).tb = s.tb ∧ (s.writerAbortEnd).params = s.params ∧
      (s.writerAbortEnd).cal = s.cal ∧ (s.writerAbortEnd).loader = s.loader ∧
      (s.writerAbortEnd).chans = s.chans ∧ (s.writerAbortEnd).links = s.links ∧
      (s.writerAbortEnd).conv = s.conv ∧ (s.writerAbortEnd).port = s.port ∧
      (s.writerAbortEnd).win = s.win ∧ (s.writerAbortEnd).pins = s.pins := by
  simp only [State.writerAbortEnd]
  (repeat' split) <;> simp

@[simp] theorem State.writerAbort_frame (s : State) :
    (s.writerAbort).pending = s.pending ∧ (s.writerAbort).eng = s.eng ∧
      (s.writerAbort).tb = s.tb ∧ (s.writerAbort).params = s.params ∧
      (s.writerAbort).cal = s.cal ∧ (s.writerAbort).loader = s.loader ∧
      (s.writerAbort).chans = s.chans ∧ (s.writerAbort).links = s.links ∧
      (s.writerAbort).conv = s.conv ∧ (s.writerAbort).win = s.win ∧
      (s.writerAbort).pins = s.pins := by
  simp only [State.writerAbort]
  (repeat' split) <;> simp

@[simp] theorem State.beginFlush_frame (s : State) :
    (s.beginFlush).pending = s.pending ∧ (s.beginFlush).eng.session = s.eng.session ∧
      (s.beginFlush).eng.result = s.eng.result ∧ (s.beginFlush).eng.cba = s.eng.cba ∧
      (s.beginFlush).eng.resetPending = s.eng.resetPending ∧ (s.beginFlush).eng.lastStart = s.eng.lastStart ∧
      (s.beginFlush).tb = s.tb ∧ (s.beginFlush).params = s.params ∧
      (s.beginFlush).cal = s.cal ∧ (s.beginFlush).loader = s.loader ∧
      (s.beginFlush).chans = s.chans ∧ (s.beginFlush).links = s.links ∧
      (s.beginFlush).conv = s.conv ∧ (s.beginFlush).port = s.port ∧
      (s.beginFlush).win = s.win ∧ (s.beginFlush).pins = s.pins := by
  simp only [State.beginFlush]
  (repeat' split) <;> simp

@[simp] theorem State.overtakeSummary_frame (s : State) :
    (s.overtakeSummary).pending = s.pending ∧ (s.overtakeSummary).eng.session = s.eng.session ∧
      (s.overtakeSummary).eng.result = s.eng.result ∧ (s.overtakeSummary).eng.cba = s.eng.cba ∧
      (s.overtakeSummary).eng.resetPending = s.eng.resetPending ∧ (s.overtakeSummary).eng.lastStart = s.eng.lastStart ∧
      (s.overtakeSummary).tb = s.tb ∧ (s.overtakeSummary).params = s.params ∧
      (s.overtakeSummary).cal = s.cal ∧ (s.overtakeSummary).loader = s.loader ∧
      (s.overtakeSummary).chans = s.chans ∧ (s.overtakeSummary).links = s.links ∧
      (s.overtakeSummary).conv = s.conv ∧ (s.overtakeSummary).wr = s.wr ∧
      (s.overtakeSummary).port = s.port ∧ (s.overtakeSummary).win = s.win ∧
      (s.overtakeSummary).pins = s.pins := by
  simp only [State.overtakeSummary]
  (repeat' split) <;> simp

@[simp] theorem State.fatalFault_frame (s : State) (c : FatalFault) (a : Word) :
    (s.fatalFault c a).pending = s.pending ∧ (s.fatalFault c a).eng.session = s.eng.session ∧
      (s.fatalFault c a).eng.result = s.eng.result ∧ (s.fatalFault c a).eng.cba = s.eng.cba ∧
      (s.fatalFault c a).eng.resetPending = s.eng.resetPending ∧ (s.fatalFault c a).eng.lastStart = s.eng.lastStart ∧
      (s.fatalFault c a).params = s.params ∧ (s.fatalFault c a).links = s.links ∧
      (s.fatalFault c a).win.base = s.win.base ∧ (s.fatalFault c a).win.enable = s.win.enable ∧
      (s.fatalFault c a).win.timeHi = s.win.timeHi ∧ (s.fatalFault c a).win.busRead = s.win.busRead ∧
      (s.fatalFault c a).pins = s.pins := by
  simp only [State.fatalFault]
  (repeat' split) <;> simp

@[simp] theorem State.pathFailure_frame (s : State) (a : Word) :
    (s.pathFailure a).pending = s.pending ∧ (s.pathFailure a).eng.session = s.eng.session ∧
      (s.pathFailure a).eng.result = s.eng.result ∧ (s.pathFailure a).eng.cba = s.eng.cba ∧
      (s.pathFailure a).eng.resetPending = s.eng.resetPending ∧ (s.pathFailure a).eng.lastStart = s.eng.lastStart ∧
      (s.pathFailure a).params = s.params ∧ (s.pathFailure a).links = s.links ∧
      (s.pathFailure a).win.base = s.win.base ∧ (s.pathFailure a).win.enable = s.win.enable ∧
      (s.pathFailure a).win.timeHi = s.win.timeHi ∧ (s.pathFailure a).win.busRead = s.win.busRead ∧
      (s.pathFailure a).pins = s.pins := by
  simp only [State.pathFailure]
  (repeat' split) <;> simp

@[simp] theorem State.abortSession_frame (s : State) :
    (s.abortSession).pending = s.pending ∧ (s.abortSession).eng.session = s.eng.session ∧
      (s.abortSession).eng.result = s.eng.result ∧ (s.abortSession).eng.cba = s.eng.cba ∧
      (s.abortSession).eng.resetPending = s.eng.resetPending ∧ (s.abortSession).eng.lastStart = s.eng.lastStart ∧
      (s.abortSession).params = s.params ∧ (s.abortSession).links = s.links ∧
      (s.abortSession).win = s.win ∧ (s.abortSession).pins = s.pins := by
  simp only [State.abortSession]
  simp

@[simp] theorem State.failPrepare_frame (s : State) (e : PrepareError) :
    (s.failPrepare e).pending = s.pending ∧ (s.failPrepare e).eng.session = s.eng.session ∧
      (s.failPrepare e).eng.result = s.eng.result ∧ (s.failPrepare e).eng.cba = s.eng.cba ∧
      (s.failPrepare e).eng.resetPending = s.eng.resetPending ∧ (s.failPrepare e).eng.lastStart = s.eng.lastStart ∧
      (s.failPrepare e).tb = s.tb ∧ (s.failPrepare e).params = s.params ∧
      (s.failPrepare e).cal = s.cal ∧ (s.failPrepare e).loader = s.loader ∧
      (s.failPrepare e).chans = s.chans ∧ (s.failPrepare e).links = s.links ∧
      (s.failPrepare e).conv = s.conv ∧ (s.failPrepare e).wr = s.wr ∧
      (s.failPrepare e).port = s.port ∧ (s.failPrepare e).win.base = s.win.base ∧
      (s.failPrepare e).win.enable = s.win.enable ∧ (s.failPrepare e).win.timeHi = s.win.timeHi ∧
      (s.failPrepare e).win.busRead = s.win.busRead ∧ (s.failPrepare e).pins = s.pins := by
  simp only [State.failPrepare]
  simp

@[simp] theorem State.prepareAbortEnd_frame (s : State) :
    (s.prepareAbortEnd).pending = s.pending ∧ (s.prepareAbortEnd).eng.session = s.eng.session ∧
      (s.prepareAbortEnd).eng.result = s.eng.result ∧ (s.prepareAbortEnd).eng.cba = s.eng.cba ∧
      (s.prepareAbortEnd).eng.resetPending = s.eng.resetPending ∧ (s.prepareAbortEnd).eng.lastStart = s.eng.lastStart ∧
      (s.prepareAbortEnd).tb = s.tb ∧ (s.prepareAbortEnd).params = s.params ∧
      (s.prepareAbortEnd).cal = s.cal ∧ (s.prepareAbortEnd).chans = s.chans ∧
      (s.prepareAbortEnd).links = s.links ∧ (s.prepareAbortEnd).conv = s.conv ∧
      (s.prepareAbortEnd).wr = s.wr ∧ (s.prepareAbortEnd).port = s.port ∧
      (s.prepareAbortEnd).win.base = s.win.base ∧ (s.prepareAbortEnd).win.enable = s.win.enable ∧
      (s.prepareAbortEnd).win.timeHi = s.win.timeHi ∧ (s.prepareAbortEnd).win.busRead = s.win.busRead ∧
      (s.prepareAbortEnd).pins = s.pins := by
  simp only [State.prepareAbortEnd]
  (repeat' split) <;> simp

@[simp] theorem State.abortPreparation_frame (s : State) :
    (s.abortPreparation).pending = s.pending ∧ (s.abortPreparation).eng.session = s.eng.session ∧
      (s.abortPreparation).eng.result = s.eng.result ∧ (s.abortPreparation).eng.cba = s.eng.cba ∧
      (s.abortPreparation).eng.resetPending = s.eng.resetPending ∧ (s.abortPreparation).eng.lastStart = s.eng.lastStart ∧
      (s.abortPreparation).tb = s.tb ∧ (s.abortPreparation).params = s.params ∧
      (s.abortPreparation).chans = s.chans ∧ (s.abortPreparation).links = s.links ∧
      (s.abortPreparation).conv = s.conv ∧ (s.abortPreparation).wr = s.wr ∧
      (s.abortPreparation).win.base = s.win.base ∧ (s.abortPreparation).win.enable = s.win.enable ∧
      (s.abortPreparation).win.timeHi = s.win.timeHi ∧ (s.abortPreparation).win.busRead = s.win.busRead ∧
      (s.abortPreparation).pins = s.pins := by
  simp only [State.abortPreparation]
  (repeat' split) <;> simp

@[simp] theorem State.finishSummary_frame (s : State) :
    (s.finishSummary).pending = s.pending ∧ (s.finishSummary).eng.session = s.eng.session ∧
      (s.finishSummary).eng.result = s.eng.result ∧ (s.finishSummary).eng.cba = s.eng.cba ∧
      (s.finishSummary).eng.resetPending = s.eng.resetPending ∧ (s.finishSummary).eng.lastStart = s.eng.lastStart ∧
      (s.finishSummary).tb = s.tb ∧ (s.finishSummary).params = s.params ∧
      (s.finishSummary).cal = s.cal ∧ (s.finishSummary).loader = s.loader ∧
      (s.finishSummary).chans = s.chans ∧ (s.finishSummary).links = s.links ∧
      (s.finishSummary).conv = s.conv ∧ (s.finishSummary).wr = s.wr ∧
      (s.finishSummary).port = s.port ∧ (s.finishSummary).win.base = s.win.base ∧
      (s.finishSummary).win.enable = s.win.enable ∧ (s.finishSummary).win.timeHi = s.win.timeHi ∧
      (s.finishSummary).win.busRead = s.win.busRead ∧ (s.finishSummary).pins = s.pins := by
  simp only [State.finishSummary]
  (repeat' split) <;> simp

@[simp] theorem State.writerSettle_frame (s : State) :
    (s.writerSettle).pending = s.pending ∧ (s.writerSettle).eng.session = s.eng.session ∧
      (s.writerSettle).eng.result = s.eng.result ∧ (s.writerSettle).eng.cba = s.eng.cba ∧
      (s.writerSettle).eng.resetPending = s.eng.resetPending ∧ (s.writerSettle).eng.lastStart = s.eng.lastStart ∧
      (s.writerSettle).tb = s.tb ∧ (s.writerSettle).params = s.params ∧
      (s.writerSettle).cal = s.cal ∧ (s.writerSettle).loader = s.loader ∧
      (s.writerSettle).chans = s.chans ∧ (s.writerSettle).links = s.links ∧
      (s.writerSettle).conv = s.conv ∧ (s.writerSettle).port = s.port ∧
      (s.writerSettle).win = s.win ∧ (s.writerSettle).pins = s.pins := by
  simp only [State.writerSettle]
  (repeat' split) <;> simp

@[simp] theorem State.becomeStarved_frame (s : State) :
    (s.becomeStarved).pending = s.pending ∧ (s.becomeStarved).eng.session = s.eng.session ∧
      (s.becomeStarved).eng.result = s.eng.result ∧ (s.becomeStarved).eng.cba = s.eng.cba ∧
      (s.becomeStarved).eng.resetPending = s.eng.resetPending ∧ (s.becomeStarved).eng.lastStart = s.eng.lastStart ∧
      (s.becomeStarved).tb = s.tb ∧ (s.becomeStarved).params = s.params ∧
      (s.becomeStarved).cal = s.cal ∧ (s.becomeStarved).loader = s.loader ∧
      (s.becomeStarved).chans = s.chans ∧ (s.becomeStarved).links = s.links ∧
      (s.becomeStarved).conv = s.conv ∧ (s.becomeStarved).port = s.port ∧
      (s.becomeStarved).win.base = s.win.base ∧ (s.becomeStarved).win.enable = s.win.enable ∧
      (s.becomeStarved).win.timeHi = s.win.timeHi ∧ (s.becomeStarved).win.busRead = s.win.busRead ∧
      (s.becomeStarved).pins = s.pins := by
  simp only [State.becomeStarved]
  simp

@[simp] theorem State.rereadFailed_frame (s : State) :
    (s.rereadFailed).pending = s.pending ∧ (s.rereadFailed).eng.session = s.eng.session ∧
      (s.rereadFailed).eng.result = s.eng.result ∧ (s.rereadFailed).eng.cba = s.eng.cba ∧
      (s.rereadFailed).eng.resetPending = s.eng.resetPending ∧ (s.rereadFailed).eng.lastStart = s.eng.lastStart ∧
      (s.rereadFailed).tb = s.tb ∧ (s.rereadFailed).params = s.params ∧
      (s.rereadFailed).cal = s.cal ∧ (s.rereadFailed).loader = s.loader ∧
      (s.rereadFailed).chans = s.chans ∧ (s.rereadFailed).links = s.links ∧
      (s.rereadFailed).conv = s.conv ∧ (s.rereadFailed).port = s.port ∧
      (s.rereadFailed).win = s.win ∧
      (s.rereadFailed).pins = s.pins := by
  unfold State.rereadFailed
  (repeat' split) <;> simp

@[simp] theorem State.noSlot_frame (s : State) :
    (s.noSlot).pending = s.pending ∧ (s.noSlot).eng.session = s.eng.session ∧
      (s.noSlot).eng.result = s.eng.result ∧ (s.noSlot).eng.cba = s.eng.cba ∧
      (s.noSlot).eng.resetPending = s.eng.resetPending ∧ (s.noSlot).eng.lastStart = s.eng.lastStart ∧
      (s.noSlot).tb = s.tb ∧ (s.noSlot).params = s.params ∧
      (s.noSlot).cal = s.cal ∧ (s.noSlot).loader = s.loader ∧
      (s.noSlot).chans = s.chans ∧ (s.noSlot).links = s.links ∧
      (s.noSlot).conv = s.conv ∧ (s.noSlot).port = s.port ∧
      (s.noSlot).win.base = s.win.base ∧ (s.noSlot).win.enable = s.win.enable ∧
      (s.noSlot).win.timeHi = s.win.timeHi ∧ (s.noSlot).win.busRead = s.win.busRead ∧
      (s.noSlot).pins = s.pins := by
  unfold State.noSlot
  (repeat' split) <;> simp

@[simp] theorem State.afterRejects_frame (s : State) (g : Option GoodSlot) :
    (s.afterRejects g).pending = s.pending ∧ (s.afterRejects g).eng.session = s.eng.session ∧
      (s.afterRejects g).eng.result = s.eng.result ∧ (s.afterRejects g).eng.cba = s.eng.cba ∧
      (s.afterRejects g).eng.resetPending = s.eng.resetPending ∧ (s.afterRejects g).eng.lastStart = s.eng.lastStart ∧
      (s.afterRejects g).tb = s.tb ∧ (s.afterRejects g).params = s.params ∧
      (s.afterRejects g).cal = s.cal ∧ (s.afterRejects g).loader = s.loader ∧
      (s.afterRejects g).chans = s.chans ∧ (s.afterRejects g).links = s.links ∧
      (s.afterRejects g).conv = s.conv ∧ (s.afterRejects g).port = s.port ∧
      (s.afterRejects g).win.base = s.win.base ∧ (s.afterRejects g).win.enable = s.win.enable ∧
      (s.afterRejects g).win.timeHi = s.win.timeHi ∧ (s.afterRejects g).win.busRead = s.win.busRead ∧
      (s.afterRejects g).pins = s.pins := by
  simp only [State.afterRejects]
  (repeat' split) <;> simp

@[simp] theorem State.examine_frame (s : State) (l : List SlotEntry) :
    (s.examine l).pending = s.pending ∧ (s.examine l).eng.session = s.eng.session ∧
      (s.examine l).eng.result = s.eng.result ∧ (s.examine l).eng.cba = s.eng.cba ∧
      (s.examine l).eng.resetPending = s.eng.resetPending ∧ (s.examine l).eng.lastStart = s.eng.lastStart ∧
      (s.examine l).tb = s.tb ∧ (s.examine l).params = s.params ∧
      (s.examine l).cal = s.cal ∧ (s.examine l).loader = s.loader ∧
      (s.examine l).chans = s.chans ∧ (s.examine l).links = s.links ∧
      (s.examine l).conv = s.conv ∧ (s.examine l).port = s.port ∧
      (s.examine l).win.base = s.win.base ∧ (s.examine l).win.enable = s.win.enable ∧
      (s.examine l).win.timeHi = s.win.timeHi ∧ (s.examine l).win.busRead = s.win.busRead ∧
      (s.examine l).pins = s.pins := by
  simp only [State.examine]
  (repeat' split) <;> simp

@[simp] theorem State.recordWritten_frame (s : State) (n : Nat) :
    (s.recordWritten n).pending = s.pending ∧ (s.recordWritten n).eng = s.eng ∧
      (s.recordWritten n).tb = s.tb ∧ (s.recordWritten n).params = s.params ∧
      (s.recordWritten n).cal = s.cal ∧ (s.recordWritten n).loader = s.loader ∧
      (s.recordWritten n).chans = s.chans ∧ (s.recordWritten n).links = s.links ∧
      (s.recordWritten n).conv = s.conv ∧ (s.recordWritten n).port = s.port ∧
      (s.recordWritten n).win = s.win ∧ (s.recordWritten n).pins = s.pins := by
  simp only [State.recordWritten]
  simp

@[simp] theorem State.limitClose_frame (s : State) (c : Closing) :
    (s.limitClose c).pending = s.pending ∧ (s.limitClose c).eng.session = s.eng.session ∧
      (s.limitClose c).eng.result = s.eng.result ∧ (s.limitClose c).eng.cba = s.eng.cba ∧
      (s.limitClose c).eng.resetPending = s.eng.resetPending ∧ (s.limitClose c).eng.lastStart = s.eng.lastStart ∧
      (s.limitClose c).tb = s.tb ∧ (s.limitClose c).params = s.params ∧
      (s.limitClose c).cal = s.cal ∧ (s.limitClose c).loader = s.loader ∧
      (s.limitClose c).chans = s.chans ∧ (s.limitClose c).links = s.links ∧
      (s.limitClose c).conv = s.conv ∧ (s.limitClose c).port = s.port ∧
      (s.limitClose c).win = s.win ∧ (s.limitClose c).pins = s.pins := by
  simp only [State.limitClose]
  (repeat' split) <;> simp

@[simp] theorem State.closeComplete_frame (s : State) (c : Closing) :
    (s.closeComplete c).pending = s.pending ∧ (s.closeComplete c).eng.session = s.eng.session ∧
      (s.closeComplete c).eng.result = s.eng.result ∧ (s.closeComplete c).eng.cba = s.eng.cba ∧
      (s.closeComplete c).eng.resetPending = s.eng.resetPending ∧ (s.closeComplete c).eng.lastStart = s.eng.lastStart ∧
      (s.closeComplete c).tb = s.tb ∧ (s.closeComplete c).params = s.params ∧
      (s.closeComplete c).cal = s.cal ∧ (s.closeComplete c).loader = s.loader ∧
      (s.closeComplete c).chans = s.chans ∧ (s.closeComplete c).links = s.links ∧
      (s.closeComplete c).conv = s.conv ∧ (s.closeComplete c).port = s.port ∧
      (s.closeComplete c).win.base = s.win.base ∧ (s.closeComplete c).win.enable = s.win.enable ∧
      (s.closeComplete c).win.timeHi = s.win.timeHi ∧ (s.closeComplete c).win.busRead = s.win.busRead ∧
      (s.closeComplete c).pins = s.pins := by
  simp only [State.closeComplete]
  (repeat' split) <;> simp

@[simp] theorem State.writerOkay_frame (s : State) (d : BusData) :
    (s.writerOkay d).pending = s.pending ∧ (s.writerOkay d).eng.session = s.eng.session ∧
      (s.writerOkay d).eng.result = s.eng.result ∧ (s.writerOkay d).eng.cba = s.eng.cba ∧
      (s.writerOkay d).eng.resetPending = s.eng.resetPending ∧ (s.writerOkay d).eng.lastStart = s.eng.lastStart ∧
      (s.writerOkay d).tb = s.tb ∧ (s.writerOkay d).params = s.params ∧
      (s.writerOkay d).cal = s.cal ∧ (s.writerOkay d).loader = s.loader ∧
      (s.writerOkay d).chans = s.chans ∧ (s.writerOkay d).links = s.links ∧
      (s.writerOkay d).conv = s.conv ∧ (s.writerOkay d).port = s.port ∧
      (s.writerOkay d).win.base = s.win.base ∧ (s.writerOkay d).win.enable = s.win.enable ∧
      (s.writerOkay d).win.timeHi = s.win.timeHi ∧ (s.writerOkay d).win.busRead = s.win.busRead ∧
      (s.writerOkay d).pins = s.pins := by
  simp only [State.writerOkay]
  (repeat' split) <;> simp

@[simp] theorem State.writerAnswer_frame (s : State) (w : Word) (a : Answer) :
    (s.writerAnswer w a).pending = s.pending ∧ (s.writerAnswer w a).eng.session = s.eng.session ∧
      (s.writerAnswer w a).eng.result = s.eng.result ∧ (s.writerAnswer w a).eng.cba = s.eng.cba ∧
      (s.writerAnswer w a).eng.resetPending = s.eng.resetPending ∧ (s.writerAnswer w a).eng.lastStart = s.eng.lastStart ∧
      (s.writerAnswer w a).params = s.params ∧ (s.writerAnswer w a).links = s.links ∧
      (s.writerAnswer w a).win.base = s.win.base ∧ (s.writerAnswer w a).win.enable = s.win.enable ∧
      (s.writerAnswer w a).win.timeHi = s.win.timeHi ∧ (s.writerAnswer w a).win.busRead = s.win.busRead ∧
      (s.writerAnswer w a).pins = s.pins := by
  simp only [State.writerAnswer]
  (repeat' split) <;> simp

@[simp] theorem State.reachCloseMarker_frame (s : State) (m : CloseMarker) :
    (s.reachCloseMarker m).pending = s.pending ∧ (s.reachCloseMarker m).eng.session = s.eng.session ∧
      (s.reachCloseMarker m).eng.result = s.eng.result ∧ (s.reachCloseMarker m).eng.cba = s.eng.cba ∧
      (s.reachCloseMarker m).eng.resetPending = s.eng.resetPending ∧ (s.reachCloseMarker m).eng.lastStart = s.eng.lastStart ∧
      (s.reachCloseMarker m).tb = s.tb ∧ (s.reachCloseMarker m).params = s.params ∧
      (s.reachCloseMarker m).cal = s.cal ∧ (s.reachCloseMarker m).loader = s.loader ∧
      (s.reachCloseMarker m).chans = s.chans ∧ (s.reachCloseMarker m).links = s.links ∧
      (s.reachCloseMarker m).conv = s.conv ∧ (s.reachCloseMarker m).port = s.port ∧
      (s.reachCloseMarker m).win = s.win ∧ (s.reachCloseMarker m).pins = s.pins := by
  simp only [State.reachCloseMarker]
  (repeat' split) <;> simp

@[simp] theorem State.reachEndMarker_frame (s : State) :
    (s.reachEndMarker).pending = s.pending ∧ (s.reachEndMarker).eng.session = s.eng.session ∧
      (s.reachEndMarker).eng.result = s.eng.result ∧ (s.reachEndMarker).eng.cba = s.eng.cba ∧
      (s.reachEndMarker).eng.resetPending = s.eng.resetPending ∧ (s.reachEndMarker).eng.lastStart = s.eng.lastStart ∧
      (s.reachEndMarker).tb = s.tb ∧ (s.reachEndMarker).params = s.params ∧
      (s.reachEndMarker).cal = s.cal ∧ (s.reachEndMarker).loader = s.loader ∧
      (s.reachEndMarker).chans = s.chans ∧ (s.reachEndMarker).links = s.links ∧
      (s.reachEndMarker).conv = s.conv ∧ (s.reachEndMarker).port = s.port ∧
      (s.reachEndMarker).win = s.win ∧ (s.reachEndMarker).pins = s.pins := by
  simp only [State.reachEndMarker]
  simp

@[simp] theorem State.takeDeadline_frame (s : State) :
    (s.takeDeadline).pending = s.pending ∧ (s.takeDeadline).eng = s.eng ∧
      (s.takeDeadline).tb = s.tb ∧ (s.takeDeadline).params = s.params ∧
      (s.takeDeadline).cal = s.cal ∧ (s.takeDeadline).loader = s.loader ∧
      (s.takeDeadline).chans = s.chans ∧ (s.takeDeadline).links = s.links ∧
      (s.takeDeadline).conv = s.conv ∧ (s.takeDeadline).port = s.port ∧
      (s.takeDeadline).win = s.win ∧ (s.takeDeadline).pins = s.pins := by
  simp only [State.takeDeadline]
  (repeat' split) <;> simp

@[simp] theorem EngineControl.drainLost_frame (g : EngineControl) :
    g.drainLost.session = g.session ∧ g.drainLost.result = g.result ∧ g.drainLost.cba = g.cba ∧
      g.drainLost.resetPending = g.resetPending ∧ g.drainLost.lastStart = g.lastStart ∧ g.drainLost.state = g.state ∧
      g.drainLost.task = g.task := by
  simp only [EngineControl.drainLost]
  split <;> simp

@[simp] theorem State.takeDrainLimit_frame (s : State) :
    (s.takeDrainLimit).pending = s.pending ∧ (s.takeDrainLimit).eng.session = s.eng.session ∧
      (s.takeDrainLimit).eng.result = s.eng.result ∧ (s.takeDrainLimit).eng.cba = s.eng.cba ∧
      (s.takeDrainLimit).eng.resetPending = s.eng.resetPending ∧ (s.takeDrainLimit).eng.lastStart = s.eng.lastStart ∧
      (s.takeDrainLimit).tb = s.tb ∧ (s.takeDrainLimit).params = s.params ∧
      (s.takeDrainLimit).cal = s.cal ∧ (s.takeDrainLimit).loader = s.loader ∧
      (s.takeDrainLimit).chans = s.chans ∧ (s.takeDrainLimit).links = s.links ∧
      (s.takeDrainLimit).conv = s.conv ∧ (s.takeDrainLimit).port = s.port ∧
      (s.takeDrainLimit).win = s.win ∧ (s.takeDrainLimit).pins = s.pins := by
  simp only [State.takeDrainLimit]
  simp

@[simp] theorem State.writerReread_frame (s : State) :
    (s.writerReread).pending = s.pending ∧ (s.writerReread).eng = s.eng ∧
      (s.writerReread).tb = s.tb ∧ (s.writerReread).params = s.params ∧
      (s.writerReread).cal = s.cal ∧ (s.writerReread).loader = s.loader ∧
      (s.writerReread).chans = s.chans ∧ (s.writerReread).links = s.links ∧
      (s.writerReread).conv = s.conv ∧ (s.writerReread).port = s.port ∧
      (s.writerReread).win = s.win ∧ (s.writerReread).pins = s.pins := by
  simp only [State.writerReread]
  (repeat' split) <;> simp

@[simp] theorem State.writerScan_frame (s : State) :
    (s.writerScan).pending = s.pending ∧ (s.writerScan).eng = s.eng ∧
      (s.writerScan).tb = s.tb ∧ (s.writerScan).params = s.params ∧
      (s.writerScan).cal = s.cal ∧ (s.writerScan).loader = s.loader ∧
      (s.writerScan).chans = s.chans ∧ (s.writerScan).links = s.links ∧
      (s.writerScan).conv = s.conv ∧ (s.writerScan).port = s.port ∧
      (s.writerScan).win = s.win ∧ (s.writerScan).pins = s.pins := by
  simp only [State.writerScan]
  (repeat' split) <;> simp

@[simp] theorem State.retireAlerts_frame (s : State) (a b : Bool) :
    (s.retireAlerts a b).pending = s.pending ∧ (s.retireAlerts a b).eng = s.eng ∧
      (s.retireAlerts a b).tb = s.tb ∧ (s.retireAlerts a b).params = s.params ∧
      (s.retireAlerts a b).cal = s.cal ∧ (s.retireAlerts a b).loader = s.loader ∧
      (s.retireAlerts a b).chans = s.chans ∧ (s.retireAlerts a b).links = s.links ∧
      (s.retireAlerts a b).conv = s.conv ∧ (s.retireAlerts a b).wr = s.wr ∧
      (s.retireAlerts a b).port = s.port ∧ (s.retireAlerts a b).win.base = s.win.base ∧
      (s.retireAlerts a b).win.enable = s.win.enable ∧ (s.retireAlerts a b).win.timeHi = s.win.timeHi ∧
      (s.retireAlerts a b).win.busRead = s.win.busRead ∧ (s.retireAlerts a b).pins = s.pins := by
  simp only [State.retireAlerts]
  (repeat' split) <;> simp

@[simp] theorem State.retireEntry_frame (s : State) (e : Entry) (o : CueOutcome) (l : Option Half) :
    (s.retireEntry e o l).pending = s.pending ∧ (s.retireEntry e o l).eng = s.eng ∧
      (s.retireEntry e o l).tb = s.tb ∧ (s.retireEntry e o l).params = s.params ∧
      (s.retireEntry e o l).cal = s.cal ∧ (s.retireEntry e o l).chans = s.chans ∧
      (s.retireEntry e o l).links = s.links ∧ (s.retireEntry e o l).conv = s.conv ∧
      (s.retireEntry e o l).port = s.port ∧ (s.retireEntry e o l).win.base = s.win.base ∧
      (s.retireEntry e o l).win.enable = s.win.enable ∧ (s.retireEntry e o l).win.timeHi = s.win.timeHi ∧
      (s.retireEntry e o l).win.busRead = s.win.busRead ∧ (s.retireEntry e o l).pins = s.pins := by
  simp only [State.retireEntry]
  (repeat' split) <;> simp

@[simp] theorem State.dispatchChannel_frame (s : State) (e : Entry) (l : Option Half) (ch : ChanId) (v : ChanVerb) :
    (s.dispatchChannel e l ch v).pending = s.pending ∧ (s.dispatchChannel e l ch v).eng = s.eng ∧
      (s.dispatchChannel e l ch v).tb = s.tb ∧ (s.dispatchChannel e l ch v).params = s.params ∧
      (s.dispatchChannel e l ch v).cal = s.cal ∧ (s.dispatchChannel e l ch v).links = s.links ∧
      (s.dispatchChannel e l ch v).conv = s.conv ∧ (s.dispatchChannel e l ch v).port = s.port ∧
      (s.dispatchChannel e l ch v).win.base = s.win.base ∧ (s.dispatchChannel e l ch v).win.enable = s.win.enable ∧
      (s.dispatchChannel e l ch v).win.timeHi = s.win.timeHi ∧ (s.dispatchChannel e l ch v).win.busRead = s.win.busRead ∧
      (s.dispatchChannel e l ch v).pins = s.pins := by
  simp only [State.dispatchChannel]
  simp

@[simp] theorem State.dispatchConverter_frame (s : State) (e : Entry) (l : Option Half) (v : ConvVerb) :
    (s.dispatchConverter e l v).pending = s.pending ∧ (s.dispatchConverter e l v).eng = s.eng ∧
      (s.dispatchConverter e l v).tb = s.tb ∧ (s.dispatchConverter e l v).params = s.params ∧
      (s.dispatchConverter e l v).cal = s.cal ∧ (s.dispatchConverter e l v).chans = s.chans ∧
      (s.dispatchConverter e l v).links = s.links ∧ (s.dispatchConverter e l v).port = s.port ∧
      (s.dispatchConverter e l v).win.base = s.win.base ∧ (s.dispatchConverter e l v).win.enable = s.win.enable ∧
      (s.dispatchConverter e l v).win.timeHi = s.win.timeHi ∧ (s.dispatchConverter e l v).win.busRead = s.win.busRead ∧
      (s.dispatchConverter e l v).pins = s.pins := by
  simp only [State.dispatchConverter]
  simp

@[simp] theorem State.dispatchNote_frame (s : State) (e : Entry) (l : Option Half) (p : BitVec 128) :
    (s.dispatchNote e l p).pending = s.pending ∧ (s.dispatchNote e l p).eng = s.eng ∧
      (s.dispatchNote e l p).tb = s.tb ∧ (s.dispatchNote e l p).params = s.params ∧
      (s.dispatchNote e l p).cal = s.cal ∧ (s.dispatchNote e l p).chans = s.chans ∧
      (s.dispatchNote e l p).links = s.links ∧ (s.dispatchNote e l p).conv = s.conv ∧
      (s.dispatchNote e l p).port = s.port ∧ (s.dispatchNote e l p).win.base = s.win.base ∧
      (s.dispatchNote e l p).win.enable = s.win.enable ∧ (s.dispatchNote e l p).win.timeHi = s.win.timeHi ∧
      (s.dispatchNote e l p).win.busRead = s.win.busRead ∧ (s.dispatchNote e l p).pins = s.pins := by
  simp only [State.dispatchNote]
  (repeat' split) <;> simp

@[simp] theorem State.dispatchClosePage_frame (s : State) (e : Entry) (l : Option Half) :
    (s.dispatchClosePage e l).pending = s.pending ∧ (s.dispatchClosePage e l).eng = s.eng ∧
      (s.dispatchClosePage e l).tb = s.tb ∧ (s.dispatchClosePage e l).params = s.params ∧
      (s.dispatchClosePage e l).cal = s.cal ∧ (s.dispatchClosePage e l).chans = s.chans ∧
      (s.dispatchClosePage e l).links = s.links ∧ (s.dispatchClosePage e l).conv = s.conv ∧
      (s.dispatchClosePage e l).port = s.port ∧ (s.dispatchClosePage e l).win.base = s.win.base ∧
      (s.dispatchClosePage e l).win.enable = s.win.enable ∧ (s.dispatchClosePage e l).win.timeHi = s.win.timeHi ∧
      (s.dispatchClosePage e l).win.busRead = s.win.busRead ∧ (s.dispatchClosePage e l).pins = s.pins := by
  simp only [State.dispatchClosePage]
  (repeat' split) <;> simp

@[simp] theorem State.dispatchEnd_frame (s : State) (e : Entry) (l : Option Half) :
    (s.dispatchEnd e l).pending = s.pending ∧ (s.dispatchEnd e l).eng.session = s.eng.session ∧
      (s.dispatchEnd e l).eng.result = s.eng.result ∧ (s.dispatchEnd e l).eng.cba = s.eng.cba ∧
      (s.dispatchEnd e l).eng.resetPending = s.eng.resetPending ∧ (s.dispatchEnd e l).eng.lastStart = s.eng.lastStart ∧
      (s.dispatchEnd e l).tb = s.tb ∧ (s.dispatchEnd e l).params = s.params ∧
      (s.dispatchEnd e l).links = s.links ∧ (s.dispatchEnd e l).port = s.port ∧
      (s.dispatchEnd e l).win.base = s.win.base ∧ (s.dispatchEnd e l).win.enable = s.win.enable ∧
      (s.dispatchEnd e l).win.timeHi = s.win.timeHi ∧ (s.dispatchEnd e l).win.busRead = s.win.busRead ∧
      (s.dispatchEnd e l).pins = s.pins := by
  simp only [State.dispatchEnd]
  (repeat' split) <;> simp

@[simp] theorem State.dispatch_frame (s : State) (e : Entry) (l : Option Half) :
    (s.dispatch e l).pending = s.pending ∧ (s.dispatch e l).eng.session = s.eng.session ∧
      (s.dispatch e l).eng.result = s.eng.result ∧ (s.dispatch e l).eng.cba = s.eng.cba ∧
      (s.dispatch e l).eng.resetPending = s.eng.resetPending ∧ (s.dispatch e l).eng.lastStart = s.eng.lastStart ∧
      (s.dispatch e l).tb = s.tb ∧ (s.dispatch e l).params = s.params ∧
      (s.dispatch e l).links = s.links ∧ (s.dispatch e l).port = s.port ∧
      (s.dispatch e l).win.base = s.win.base ∧ (s.dispatch e l).win.enable = s.win.enable ∧
      (s.dispatch e l).win.timeHi = s.win.timeHi ∧ (s.dispatch e l).win.busRead = s.win.busRead ∧
      (s.dispatch e l).pins = s.pins := by
  simp only [State.dispatch]
  (repeat' split) <;> simp

@[simp] theorem State.handleEntry_frame (s : State) (e : Entry) :
    (s.handleEntry e).pending = s.pending ∧ (s.handleEntry e).eng.session = s.eng.session ∧
      (s.handleEntry e).eng.result = s.eng.result ∧ (s.handleEntry e).eng.cba = s.eng.cba ∧
      (s.handleEntry e).eng.resetPending = s.eng.resetPending ∧ (s.handleEntry e).eng.lastStart = s.eng.lastStart ∧
      (s.handleEntry e).tb = s.tb ∧ (s.handleEntry e).params = s.params ∧
      (s.handleEntry e).links = s.links ∧ (s.handleEntry e).port = s.port ∧
      (s.handleEntry e).win.base = s.win.base ∧ (s.handleEntry e).win.enable = s.win.enable ∧
      (s.handleEntry e).win.timeHi = s.win.timeHi ∧ (s.handleEntry e).win.busRead = s.win.busRead ∧
      (s.handleEntry e).pins = s.pins := by
  simp only [State.handleEntry]
  (repeat' split) <;> simp

@[simp] theorem State.takeExpiry_frame (s : State) :
    (s.takeExpiry).pending = s.pending ∧ (s.takeExpiry).eng.session = s.eng.session ∧
      (s.takeExpiry).eng.result = s.eng.result ∧ (s.takeExpiry).eng.cba = s.eng.cba ∧
      (s.takeExpiry).eng.resetPending = s.eng.resetPending ∧ (s.takeExpiry).eng.lastStart = s.eng.lastStart ∧
      (s.takeExpiry).tb = s.tb ∧ (s.takeExpiry).params = s.params ∧
      (s.takeExpiry).links = s.links ∧ (s.takeExpiry).port = s.port ∧
      (s.takeExpiry).win.base = s.win.base ∧ (s.takeExpiry).win.enable = s.win.enable ∧
      (s.takeExpiry).win.timeHi = s.win.timeHi ∧ (s.takeExpiry).win.busRead = s.win.busRead ∧
      (s.takeExpiry).pins = s.pins := by
  simp only [State.takeExpiry]
  (repeat' split) <;> simp

@[simp] theorem State.takeExpiries_frame (s : State) (n : Nat) :
    (s.takeExpiries n).pending = s.pending ∧ (s.takeExpiries n).eng.session = s.eng.session ∧
      (s.takeExpiries n).eng.result = s.eng.result ∧ (s.takeExpiries n).eng.cba = s.eng.cba ∧
      (s.takeExpiries n).eng.resetPending = s.eng.resetPending ∧ (s.takeExpiries n).eng.lastStart = s.eng.lastStart ∧
      (s.takeExpiries n).tb = s.tb ∧ (s.takeExpiries n).params = s.params ∧
      (s.takeExpiries n).links = s.links ∧ (s.takeExpiries n).port = s.port ∧
      (s.takeExpiries n).win.base = s.win.base ∧ (s.takeExpiries n).win.enable = s.win.enable ∧
      (s.takeExpiries n).win.timeHi = s.win.timeHi ∧ (s.takeExpiries n).win.busRead = s.win.busRead ∧
      (s.takeExpiries n).pins = s.pins := by
  induction n generalizing s with
  | zero => simp [State.takeExpiries]
  | succ k ih =>
    simp only [State.takeExpiries]
    (repeat' split) <;> simp [ih]

@[simp] theorem State.takeHead_frame (s : State) (i : LaneId) (h : Head) (c : Cue) :
    (s.takeHead i h c).pending = s.pending ∧ (s.takeHead i h c).eng.session = s.eng.session ∧
      (s.takeHead i h c).eng.result = s.eng.result ∧ (s.takeHead i h c).eng.cba = s.eng.cba ∧
      (s.takeHead i h c).eng.resetPending = s.eng.resetPending ∧ (s.takeHead i h c).eng.lastStart = s.eng.lastStart ∧
      (s.takeHead i h c).tb = s.tb ∧ (s.takeHead i h c).params = s.params ∧
      (s.takeHead i h c).links = s.links ∧ (s.takeHead i h c).port = s.port ∧
      (s.takeHead i h c).win.base = s.win.base ∧ (s.takeHead i h c).win.enable = s.win.enable ∧
      (s.takeHead i h c).win.timeHi = s.win.timeHi ∧ (s.takeHead i h c).win.busRead = s.win.busRead ∧
      (s.takeHead i h c).pins = s.pins := by
  simp only [State.takeHead]
  (repeat' split) <;> simp

@[simp] theorem State.offerHead_frame (s : State) (i : LaneId) :
    (s.offerHead i).pending = s.pending ∧ (s.offerHead i).eng.session = s.eng.session ∧
      (s.offerHead i).eng.result = s.eng.result ∧ (s.offerHead i).eng.cba = s.eng.cba ∧
      (s.offerHead i).eng.resetPending = s.eng.resetPending ∧ (s.offerHead i).eng.lastStart = s.eng.lastStart ∧
      (s.offerHead i).tb = s.tb ∧ (s.offerHead i).params = s.params ∧
      (s.offerHead i).links = s.links ∧ (s.offerHead i).port = s.port ∧
      (s.offerHead i).win.base = s.win.base ∧ (s.offerHead i).win.enable = s.win.enable ∧
      (s.offerHead i).win.timeHi = s.win.timeHi ∧ (s.offerHead i).win.busRead = s.win.busRead ∧
      (s.offerHead i).pins = s.pins := by
  simp only [State.offerHead]
  (repeat' split) <;> simp

@[simp] theorem State.startSession_frame (s : State) :
    (s.startSession).pending = s.pending ∧ (s.startSession).eng.session = s.eng.session ∧
      (s.startSession).eng.result = s.eng.result ∧ (s.startSession).eng.cba = s.eng.cba ∧
      (s.startSession).eng.resetPending = s.eng.resetPending ∧ (s.startSession).eng.lastStart = s.eng.lastStart ∧
      (s.startSession).params = s.params ∧ (s.startSession).links = s.links ∧
      (s.startSession).port = s.port ∧ (s.startSession).win.base = s.win.base ∧
      (s.startSession).win.enable = s.win.enable ∧ (s.startSession).win.timeHi = s.win.timeHi ∧
      (s.startSession).win.busRead = s.win.busRead ∧ (s.startSession).pins = s.pins := by
  simp only [State.startSession]
  split <;> simp

@[simp] theorem State.takeCue_frame (s : State) (p : Action → Bool) :
    (s.takeCue p).pending = s.pending ∧ (s.takeCue p).eng.session = s.eng.session ∧
      (s.takeCue p).eng.result = s.eng.result ∧ (s.takeCue p).eng.cba = s.eng.cba ∧
      (s.takeCue p).eng.resetPending = s.eng.resetPending ∧ (s.takeCue p).eng.lastStart = s.eng.lastStart ∧
      (s.takeCue p).tb = s.tb ∧ (s.takeCue p).params = s.params ∧
      (s.takeCue p).links = s.links ∧ (s.takeCue p).port = s.port ∧
      (s.takeCue p).win.base = s.win.base ∧ (s.takeCue p).win.enable = s.win.enable ∧
      (s.takeCue p).win.timeHi = s.win.timeHi ∧ (s.takeCue p).win.busRead = s.win.busRead ∧
      (s.takeCue p).pins = s.pins := by
  simp only [State.takeCue]
  (repeat' split) <;> simp

@[simp] theorem State.settleCalendar_frame (s : State) (n : Nat) :
    (s.settleCalendar n).pending = s.pending ∧ (s.settleCalendar n).eng.session = s.eng.session ∧
      (s.settleCalendar n).eng.result = s.eng.result ∧ (s.settleCalendar n).eng.cba = s.eng.cba ∧
      (s.settleCalendar n).eng.resetPending = s.eng.resetPending ∧ (s.settleCalendar n).eng.lastStart = s.eng.lastStart ∧
      (s.settleCalendar n).tb = s.tb ∧ (s.settleCalendar n).params = s.params ∧
      (s.settleCalendar n).links = s.links ∧ (s.settleCalendar n).port = s.port ∧
      (s.settleCalendar n).win.base = s.win.base ∧ (s.settleCalendar n).win.enable = s.win.enable ∧
      (s.settleCalendar n).win.timeHi = s.win.timeHi ∧ (s.settleCalendar n).win.busRead = s.win.busRead ∧
      (s.settleCalendar n).pins = s.pins := by
  induction n generalizing s with
  | zero => simp [State.settleCalendar]
  | succ k ih =>
    simp only [State.settleCalendar]
    (repeat' split) <;> simp [ih]

@[simp] theorem State.takeArrival_frame (s : State) (ch : ChanId) (l : Level) :
    (s.takeArrival ch l).pending = s.pending ∧ (s.takeArrival ch l).eng = s.eng ∧
      (s.takeArrival ch l).tb = s.tb ∧ (s.takeArrival ch l).params = s.params ∧
      (s.takeArrival ch l).cal = s.cal ∧ (s.takeArrival ch l).loader = s.loader ∧
      (s.takeArrival ch l).conv = s.conv ∧ (s.takeArrival ch l).port = s.port ∧
      (s.takeArrival ch l).win = s.win ∧ (s.takeArrival ch l).pins = s.pins := by
  simp only [State.takeArrival]
  (repeat' split) <;> simp

@[simp] theorem State.settleArrivals_frame (s : State) (l : List ChanId) :
    (s.settleArrivals l).pending = s.pending ∧ (s.settleArrivals l).eng = s.eng ∧
      (s.settleArrivals l).tb = s.tb ∧ (s.settleArrivals l).params = s.params ∧
      (s.settleArrivals l).cal = s.cal ∧ (s.settleArrivals l).loader = s.loader ∧
      (s.settleArrivals l).conv = s.conv ∧ (s.settleArrivals l).port = s.port ∧
      (s.settleArrivals l).win = s.win ∧ (s.settleArrivals l).pins = s.pins := by
  induction l generalizing s with
  | nil => simp [State.settleArrivals]
  | cons x rest ih => simp [State.settleArrivals, ih]

@[simp] theorem State.takeFire_frame (s : State) (a b : ChanId) :
    (s.takeFire a b).pending = s.pending ∧ (s.takeFire a b).eng = s.eng ∧
      (s.takeFire a b).tb = s.tb ∧ (s.takeFire a b).params = s.params ∧
      (s.takeFire a b).cal = s.cal ∧ (s.takeFire a b).loader = s.loader ∧
      (s.takeFire a b).conv = s.conv ∧ (s.takeFire a b).wr = s.wr ∧
      (s.takeFire a b).port = s.port ∧ (s.takeFire a b).win = s.win ∧
      (s.takeFire a b).pins = s.pins := by
  simp only [State.takeFire]
  (repeat' split) <;> simp

@[simp] theorem State.takeLinkRequest_frame (s : State) (a : ChanId) :
    (s.takeLinkRequest a).pending = s.pending ∧ (s.takeLinkRequest a).eng = s.eng ∧
      (s.takeLinkRequest a).tb = s.tb ∧ (s.takeLinkRequest a).params = s.params ∧
      (s.takeLinkRequest a).cal = s.cal ∧ (s.takeLinkRequest a).loader = s.loader ∧
      (s.takeLinkRequest a).chans = s.chans ∧ (s.takeLinkRequest a).port = s.port ∧
      (s.takeLinkRequest a).win = s.win ∧ (s.takeLinkRequest a).pins = s.pins := by
  simp only [State.takeLinkRequest]
  (repeat' split) <;> simp

@[simp] theorem State.takeLink_frame (s : State) (d : LinkDelivery) :
    (s.takeLink d).pending = s.pending ∧ (s.takeLink d).eng = s.eng ∧
      (s.takeLink d).tb = s.tb ∧ (s.takeLink d).params = s.params ∧
      (s.takeLink d).cal = s.cal ∧ (s.takeLink d).loader = s.loader ∧
      (s.takeLink d).port = s.port ∧ (s.takeLink d).win = s.win ∧
      (s.takeLink d).pins = s.pins := by
  simp only [State.takeLink]
  (repeat' split) <;> simp

@[simp] theorem State.settleLinks_frame (s : State) (l : List LinkDelivery) :
    (s.settleLinks l).pending = s.pending ∧ (s.settleLinks l).eng = s.eng ∧
      (s.settleLinks l).tb = s.tb ∧ (s.settleLinks l).params = s.params ∧
      (s.settleLinks l).cal = s.cal ∧ (s.settleLinks l).loader = s.loader ∧
      (s.settleLinks l).port = s.port ∧ (s.settleLinks l).win = s.win ∧
      (s.settleLinks l).pins = s.pins := by
  induction l generalizing s with
  | nil => simp [State.settleLinks]
  | cons x rest ih => simp [State.settleLinks, ih]

@[simp] theorem State.takeReady_frame (s : State) (p : PowerState) :
    (s.takeReady p).pending = s.pending ∧ (s.takeReady p).eng = s.eng ∧
      (s.takeReady p).tb = s.tb ∧ (s.takeReady p).params = s.params ∧
      (s.takeReady p).cal = s.cal ∧ (s.takeReady p).loader = s.loader ∧
      (s.takeReady p).chans = s.chans ∧ (s.takeReady p).links = s.links ∧
      (s.takeReady p).wr = s.wr ∧ (s.takeReady p).port = s.port ∧
      (s.takeReady p).win = s.win ∧ (s.takeReady p).pins = s.pins := by
  simp only [State.takeReady]
  (repeat' split) <;> simp

@[simp] theorem State.takeConversionEnd_frame (s : State) :
    (s.takeConversionEnd).pending = s.pending ∧ (s.takeConversionEnd).eng.session = s.eng.session ∧
      (s.takeConversionEnd).eng.result = s.eng.result ∧ (s.takeConversionEnd).eng.cba = s.eng.cba ∧
      (s.takeConversionEnd).eng.resetPending = s.eng.resetPending ∧ (s.takeConversionEnd).eng.lastStart = s.eng.lastStart ∧
      (s.takeConversionEnd).tb = s.tb ∧ (s.takeConversionEnd).params = s.params ∧
      (s.takeConversionEnd).cal = s.cal ∧ (s.takeConversionEnd).loader = s.loader ∧
      (s.takeConversionEnd).chans = s.chans ∧ (s.takeConversionEnd).links = s.links ∧
      (s.takeConversionEnd).port = s.port ∧ (s.takeConversionEnd).win = s.win ∧
      (s.takeConversionEnd).pins = s.pins := by
  simp only [State.takeConversionEnd]
  (repeat' split) <;> simp

@[simp] theorem State.takeScan_frame (s : State) :
    (s.takeScan).pending = s.pending ∧ (s.takeScan).eng = s.eng ∧
      (s.takeScan).params = s.params ∧ (s.takeScan).cal = s.cal ∧
      (s.takeScan).chans = s.chans ∧ (s.takeScan).links = s.links ∧
      (s.takeScan).conv = s.conv ∧ (s.takeScan).port = s.port ∧
      (s.takeScan).win = s.win ∧ (s.takeScan).pins = s.pins := by
  simp only [State.takeScan]
  (repeat' split) <;> simp

@[simp] theorem State.takeTimebaseEnd_frame (s : State) :
    (s.takeTimebaseEnd).pending = s.pending ∧ (s.takeTimebaseEnd).eng.session = s.eng.session ∧
      (s.takeTimebaseEnd).eng.result = s.eng.result ∧ (s.takeTimebaseEnd).eng.cba = s.eng.cba ∧
      (s.takeTimebaseEnd).eng.resetPending = s.eng.resetPending ∧ (s.takeTimebaseEnd).eng.lastStart = s.eng.lastStart ∧
      (s.takeTimebaseEnd).params = s.params ∧ (s.takeTimebaseEnd).links = s.links ∧
      (s.takeTimebaseEnd).win.base = s.win.base ∧ (s.takeTimebaseEnd).win.enable = s.win.enable ∧
      (s.takeTimebaseEnd).win.timeHi = s.win.timeHi ∧ (s.takeTimebaseEnd).win.busRead = s.win.busRead ∧
      (s.takeTimebaseEnd).pins = s.pins := by
  simp only [State.takeTimebaseEnd]
  (repeat' split) <;> simp

@[simp] theorem State.takeDeadlineExpiry_frame (s : State) :
    (s.takeDeadlineExpiry).pending = s.pending ∧ (s.takeDeadlineExpiry).eng = s.eng ∧
      (s.takeDeadlineExpiry).tb = s.tb ∧ (s.takeDeadlineExpiry).params = s.params ∧
      (s.takeDeadlineExpiry).cal = s.cal ∧ (s.takeDeadlineExpiry).loader = s.loader ∧
      (s.takeDeadlineExpiry).chans = s.chans ∧ (s.takeDeadlineExpiry).links = s.links ∧
      (s.takeDeadlineExpiry).conv = s.conv ∧ (s.takeDeadlineExpiry).port = s.port ∧
      (s.takeDeadlineExpiry).win = s.win ∧ (s.takeDeadlineExpiry).pins = s.pins := by
  simp only [State.takeDeadlineExpiry]
  (repeat' split) <;> simp

@[simp] theorem State.sampleStart_frame (s : State) (l : Level) :
    (s.sampleStart l).pending = s.pending ∧ (s.sampleStart l).eng.session = s.eng.session ∧
      (s.sampleStart l).eng.result = s.eng.result ∧ (s.sampleStart l).eng.cba = s.eng.cba ∧
      (s.sampleStart l).eng.resetPending = s.eng.resetPending ∧ (s.sampleStart l).params = s.params ∧
      (s.sampleStart l).links = s.links ∧ (s.sampleStart l).port = s.port ∧
      (s.sampleStart l).win.base = s.win.base ∧ (s.sampleStart l).win.enable = s.win.enable ∧
      (s.sampleStart l).win.timeHi = s.win.timeHi ∧ (s.sampleStart l).win.busRead = s.win.busRead ∧
      (s.sampleStart l).pins = s.pins := by
  simp only [State.sampleStart]
  (repeat' split) <;> simp

/-! ## Answers and the port -/

@[simp] theorem State.setUpSession_frame (s : State) (su : SessionSetup) :
    (s.setUpSession su).pending = s.pending ∧ (s.setUpSession su).eng.session = s.eng.session ∧
      (s.setUpSession su).eng.result = s.eng.result ∧ (s.setUpSession su).eng.cba = s.eng.cba ∧
      (s.setUpSession su).eng.resetPending = s.eng.resetPending ∧ (s.setUpSession su).links = s.links ∧
      (s.setUpSession su).win.base = s.win.base ∧
      (s.setUpSession su).win.enable = s.win.enable ∧ (s.setUpSession su).win.timeHi = s.win.timeHi ∧
      (s.setUpSession su).win.busRead = s.win.busRead ∧ (s.setUpSession su).pins = s.pins := by
  simp [State.setUpSession]

@[simp] theorem State.engineAnswer_frame (s : State) (a : Answer) :
    (s.engineAnswer a).pending = s.pending ∧ (s.engineAnswer a).eng.session = s.eng.session ∧
      (s.engineAnswer a).eng.result = s.eng.result ∧ (s.engineAnswer a).eng.cba = s.eng.cba ∧
      (s.engineAnswer a).eng.resetPending = s.eng.resetPending ∧ (s.engineAnswer a).links = s.links ∧
      (s.engineAnswer a).win.base = s.win.base ∧
      (s.engineAnswer a).win.enable = s.win.enable ∧ (s.engineAnswer a).win.timeHi = s.win.timeHi ∧
      (s.engineAnswer a).win.busRead = s.win.busRead ∧ (s.engineAnswer a).pins = s.pins := by
  simp only [State.engineAnswer]
  (repeat' split) <;> simp

@[simp] theorem State.afterAnswer_frame (s : State) :
    (s.afterAnswer).pending = s.pending ∧ (s.afterAnswer).eng.session = s.eng.session ∧
      (s.afterAnswer).eng.result = s.eng.result ∧ (s.afterAnswer).eng.cba = s.eng.cba ∧
      (s.afterAnswer).eng.resetPending = s.eng.resetPending ∧ (s.afterAnswer).links = s.links ∧
      (s.afterAnswer).win.base = s.win.base ∧
      (s.afterAnswer).win.enable = s.win.enable ∧ (s.afterAnswer).win.timeHi = s.win.timeHi ∧
      (s.afterAnswer).win.busRead = s.win.busRead ∧ (s.afterAnswer).pins = s.pins := by
  simp only [State.afterAnswer]
  (repeat' split) <;> simp

@[simp] theorem State.answer_frame (s : State) (r : Requester) (rq : Request) (a : Answer) :
    (s.answer r rq a).pending = s.pending ∧ (s.answer r rq a).eng.session = s.eng.session ∧
      (s.answer r rq a).eng.result = s.eng.result ∧ (s.answer r rq a).eng.cba = s.eng.cba ∧
      (s.answer r rq a).eng.resetPending = s.eng.resetPending ∧ (s.answer r rq a).links = s.links ∧
      (s.answer r rq a).win.base = s.win.base ∧
      (s.answer r rq a).win.enable = s.win.enable ∧ (s.answer r rq a).win.timeHi = s.win.timeHi ∧
      (s.answer r rq a).win.busRead = s.win.busRead ∧ (s.answer r rq a).pins = s.pins := by
  cases r <;> simp [State.answer]

@[simp] theorem State.present_frame (s : State) (r : Requester) (rq : Request) :
    (s.present r rq).pending = s.pending ∧ (s.present r rq).eng.session = s.eng.session ∧
      (s.present r rq).eng.result = s.eng.result ∧ (s.present r rq).eng.cba = s.eng.cba ∧
      (s.present r rq).eng.resetPending = s.eng.resetPending ∧ (s.present r rq).links = s.links ∧
      (s.present r rq).win.base = s.win.base ∧
      (s.present r rq).win.enable = s.win.enable ∧ (s.present r rq).win.timeHi = s.win.timeHi ∧
      (s.present r rq).win.busRead = s.win.busRead ∧ (s.present r rq).pins = s.pins := by
  simp only [State.present]
  (repeat' split) <;> simp

@[simp] theorem State.presentLane_frame (s : State) (i : LaneId) (k : LaneAccessKind) :
    (s.presentLane i k).pending = s.pending ∧ (s.presentLane i k).eng.session = s.eng.session ∧
      (s.presentLane i k).eng.result = s.eng.result ∧ (s.presentLane i k).eng.cba = s.eng.cba ∧
      (s.presentLane i k).eng.resetPending = s.eng.resetPending ∧ (s.presentLane i k).links = s.links ∧
      (s.presentLane i k).win.base = s.win.base ∧
      (s.presentLane i k).win.enable = s.win.enable ∧ (s.presentLane i k).win.timeHi = s.win.timeHi ∧
      (s.presentLane i k).win.busRead = s.win.busRead ∧ (s.presentLane i k).pins = s.pins := by
  simp only [State.presentLane]
  (repeat' split) <;> simp

@[simp] theorem State.presentLoader_frame (s : State) :
    (s.presentLoader).pending = s.pending ∧ (s.presentLoader).eng.session = s.eng.session ∧
      (s.presentLoader).eng.result = s.eng.result ∧ (s.presentLoader).eng.cba = s.eng.cba ∧
      (s.presentLoader).eng.resetPending = s.eng.resetPending ∧ (s.presentLoader).links = s.links ∧
      (s.presentLoader).win.base = s.win.base ∧
      (s.presentLoader).win.enable = s.win.enable ∧ (s.presentLoader).win.timeHi = s.win.timeHi ∧
      (s.presentLoader).win.busRead = s.win.busRead ∧ (s.presentLoader).pins = s.pins := by
  simp only [State.presentLoader]
  (repeat' split) <;> simp

@[simp] theorem State.presentWriter_frame (s : State) :
    (s.presentWriter).pending = s.pending ∧ (s.presentWriter).eng.session = s.eng.session ∧
      (s.presentWriter).eng.result = s.eng.result ∧ (s.presentWriter).eng.cba = s.eng.cba ∧
      (s.presentWriter).eng.resetPending = s.eng.resetPending ∧ (s.presentWriter).links = s.links ∧
      (s.presentWriter).win.base = s.win.base ∧
      (s.presentWriter).win.enable = s.win.enable ∧ (s.presentWriter).win.timeHi = s.win.timeHi ∧
      (s.presentWriter).win.busRead = s.win.busRead ∧ (s.presentWriter).pins = s.pins := by
  simp only [State.presentWriter]
  (repeat' split) <;> simp

@[simp] theorem State.presentEngine_frame (s : State) :
    (s.presentEngine).pending = s.pending ∧ (s.presentEngine).eng.session = s.eng.session ∧
      (s.presentEngine).eng.result = s.eng.result ∧ (s.presentEngine).eng.cba = s.eng.cba ∧
      (s.presentEngine).eng.resetPending = s.eng.resetPending ∧ (s.presentEngine).links = s.links ∧
      (s.presentEngine).win.base = s.win.base ∧
      (s.presentEngine).win.enable = s.win.enable ∧ (s.presentEngine).win.timeHi = s.win.timeHi ∧
      (s.presentEngine).win.busRead = s.win.busRead ∧ (s.presentEngine).pins = s.pins := by
  simp only [State.presentEngine]
  (repeat' split) <;> simp

@[simp] theorem State.presentRequest_frame (s : State) (r : Requester) :
    (s.presentRequest r).pending = s.pending ∧ (s.presentRequest r).eng.session = s.eng.session ∧
      (s.presentRequest r).eng.result = s.eng.result ∧ (s.presentRequest r).eng.cba = s.eng.cba ∧
      (s.presentRequest r).eng.resetPending = s.eng.resetPending ∧ (s.presentRequest r).links = s.links ∧
      (s.presentRequest r).win.base = s.win.base ∧
      (s.presentRequest r).win.enable = s.win.enable ∧ (s.presentRequest r).win.timeHi = s.win.timeHi ∧
      (s.presentRequest r).win.busRead = s.win.busRead ∧ (s.presentRequest r).pins = s.pins := by
  simp only [State.presentRequest]
  (repeat' split) <;> simp

@[simp] theorem State.takeResponse_frame (s : State) (r : Requester) (issue : Byte) (okay : Bool) (data : BusData) :
    (s.takeResponse r issue okay data).pending = s.pending ∧ (s.takeResponse r issue okay data).eng.session = s.eng.session ∧
      (s.takeResponse r issue okay data).eng.result = s.eng.result ∧ (s.takeResponse r issue okay data).eng.cba = s.eng.cba ∧
      (s.takeResponse r issue okay data).eng.resetPending = s.eng.resetPending ∧ (s.takeResponse r issue okay data).links = s.links ∧
      (s.takeResponse r issue okay data).win.base = s.win.base ∧
      (s.takeResponse r issue okay data).win.enable = s.win.enable ∧ (s.takeResponse r issue okay data).win.timeHi = s.win.timeHi ∧
      (s.takeResponse r issue okay data).win.busRead = s.win.busRead ∧ (s.takeResponse r issue okay data).pins = s.pins := by
  simp only [State.takeResponse]
  (repeat' split) <;> simp

@[simp] theorem State.takeTimeout_frame (s : State) (r : Requester) (reading : Nat) :
    (s.takeTimeout r reading).pending = s.pending ∧ (s.takeTimeout r reading).eng.session = s.eng.session ∧
      (s.takeTimeout r reading).eng.result = s.eng.result ∧ (s.takeTimeout r reading).eng.cba = s.eng.cba ∧
      (s.takeTimeout r reading).eng.resetPending = s.eng.resetPending ∧ (s.takeTimeout r reading).links = s.links ∧
      (s.takeTimeout r reading).win.base = s.win.base ∧
      (s.takeTimeout r reading).win.enable = s.win.enable ∧ (s.takeTimeout r reading).win.timeHi = s.win.timeHi ∧
      (s.takeTimeout r reading).win.busRead = s.win.busRead := by
  simp only [State.takeTimeout]
  (repeat' split) <;> simp [State.setClock]

@[simp] theorem State.takeGrant_frame (s : State) (reading : Nat) :
    (s.takeGrant reading).pending = s.pending ∧ (s.takeGrant reading).eng = s.eng ∧
      (s.takeGrant reading).tb = s.tb ∧ (s.takeGrant reading).params = s.params ∧
      (s.takeGrant reading).cal = s.cal ∧ (s.takeGrant reading).loader = s.loader ∧
      (s.takeGrant reading).chans = s.chans ∧ (s.takeGrant reading).links = s.links ∧
      (s.takeGrant reading).conv = s.conv ∧ (s.takeGrant reading).wr = s.wr ∧
      (s.takeGrant reading).win = s.win := by
  simp only [State.takeGrant]
  (repeat' split) <;> simp [State.setClock]

end Sys2Proof.Machine
end

