-- ==== Sys2Proof/Laws/Exec.lean ====
section
/-! SUPPORT. Laws/Exec.lean: each command's effect on State as one function, when no device reset is in force. -/

namespace Sys2Proof.Machine

set_option Elab.async false

theorem exec_prepare (s : State) (h : s.pins.resetHeld = false) :
    exec .prepare s = .next (s.command s.betweenSessions State.beginPrepare) := by
  simp [exec, execPrepare, act, h]

theorem exec_startCommand (s : State) (h : s.pins.resetHeld = false) :
    exec .startCommand s = .next (s.command (s.eng.state == .armed) State.startSession) := by
  simp [exec, execStartCommand, act, h]

theorem exec_stopCommand (s : State) (h : s.pins.resetHeld = false) :
    exec .stopCommand s = .next (s.command s.stopAllowed State.takeStop) := by
  simp [exec, execStopCommand, act, h]

theorem exec_abort (s : State) (h : s.pins.resetHeld = false) :
    exec .abort s = .next (s.command s.abortAllowed State.takeAbort) := by
  simp [exec, execAbort, act, h]

theorem exec_nudge (s : State) (h : s.pins.resetHeld = false) :
    exec .nudge s = .next ((s.setResult .accepted).nudge) := by
  simp [exec, execNudge, act, h]

theorem exec_reset (s : State) (h : s.pins.resetHeld = false) :
    exec .reset s = .next ((s.setResult .accepted).beginReset) := by
  simp [exec, execReset, act, h]

theorem exec_unknownCommand (code : Word) (s : State) (h : s.pins.resetHeld = false) :
    exec (.unknownCommand code) s = .next (if unassignedCode code then s.setResult .unknown else s) := by
  simp [exec, execUnknownCommand, act, h]

theorem exec_baseWrite (value : Word) (s : State) (h : s.pins.resetHeld = false) :
    exec (.baseWrite value) s = .next (s.writeBase value) := by
  simp [exec, execBaseWrite, act, h]

theorem exec_alertWrite (value : Word) (s : State) (h : s.pins.resetHeld = false) :
    exec (.alertWrite value) s = .next (s.writeAlert value) := by
  simp [exec, execAlertWrite, act, h]

theorem exec_alertEnableWrite (value : Word) (s : State) (h : s.pins.resetHeld = false) :
    exec (.alertEnableWrite value) s = .next (s.writeEnable value) := by
  simp [exec, execAlertEnableWrite, act, h]

theorem exec_timeLoRead (s : State) (h : s.pins.resetHeld = false) :
    exec .timeLoRead s = .next s.readTimeLo := by
  simp [exec, execTimeLoRead, act, h]

theorem exec_ignoredRegisterWrite (offset : BitVec 5) (bytes : Fin 5) (value : Word) (s : State) (h : s.pins.resetHeld = false) :
    exec (.ignoredRegisterWrite offset bytes value) s = .next s := by
  simp [exec, execIgnoredRegisterWrite, act, h]

theorem exec_deviceReset (s : State) :
    exec .deviceReset s = .next (s.deviceReset) := rfl

theorem exec_engineReset (s : State) (h : s.pins.resetHeld = false) :
    exec .engineReset s = .next (State.takeEngineReset s) := by
  simp [exec, execEngineReset, act, h]

theorem exec_quietIntervalEnd (reading : Nat) (s : State) (h : s.pins.resetHeld = false) :
    exec (.quietIntervalEnd reading) s = .next (s.takeQuietEnd reading) := by
  simp [exec, execQuietIntervalEnd, act, h]

theorem exec_startLineEdge (level : Level) (s : State) (h : s.pins.resetHeld = false) :
    exec (.startLineEdge level) s = .next ((s.startLine level).sampleStart level) := by
  simp [exec, execStartLineEdge, act, h]

theorem exec_timebaseTick (s : State) (h : s.pins.resetHeld = false) :
    exec .timebaseTick s = .next (State.takeTick s) := by
  simp [exec, execTimebaseTick, act, h]

theorem exec_timebaseEnd (s : State) (h : s.pins.resetHeld = false) :
    exec .timebaseEnd s = .next (State.takeTimebaseEnd s) := by
  simp [exec, execTimebaseEnd, act, h]

theorem exec_tickArrival (ch : ChanId) (level : Level) (s : State) (h : s.pins.resetHeld = false) :
    exec (.tickArrival ch level) s = .next ((s.inputLine ch level).takeArrival ch level) := by
  simp [exec, execTickArrival, act, h]

theorem exec_scanEvent (s : State) (h : s.pins.resetHeld = false) :
    exec .scanEvent s = .next (State.takeScan s) := by
  simp [exec, execScanEvent, act, h]

theorem exec_expiry (s : State) (h : s.pins.resetHeld = false) :
    exec .expiry s = .next (State.takeExpiry s) := by
  simp [exec, execExpiry, act, h]

theorem exec_laneHeadOffer (i : LaneId) (s : State) (h : s.pins.resetHeld = false) :
    exec (.laneHeadOffer i) s = .next (s.offerHead i) := by
  simp [exec, execLaneHeadOffer, act, h]

theorem exec_set (ch : ChanId) (s : State) (h : s.pins.resetHeld = false) :
    exec (.set ch) s = .next (s.takeCue (isSet ch)) := by
  simp [exec, execSet, act, h]

theorem exec_start (ch : ChanId) (s : State) (h : s.pins.resetHeld = false) :
    exec (.start ch) s = .next (s.takeCue (· == .channel ch .start)) := by
  simp [exec, execStart, act, h]

theorem exec_stop (ch : ChanId) (s : State) (h : s.pins.resetHeld = false) :
    exec (.stop ch) s = .next (s.takeCue (· == .channel ch .stop)) := by
  simp [exec, execStop, act, h]

theorem exec_pause (ch : ChanId) (s : State) (h : s.pins.resetHeld = false) :
    exec (.pause ch) s = .next (s.takeCue (· == .channel ch .pause)) := by
  simp [exec, execPause, act, h]

theorem exec_resume (ch : ChanId) (s : State) (h : s.pins.resetHeld = false) :
    exec (.resume ch) s = .next (s.takeCue (· == .channel ch .resume)) := by
  simp [exec, execResume, act, h]

theorem exec_stage (ch : ChanId) (s : State) (h : s.pins.resetHeld = false) :
    exec (.stage ch) s = .next (s.takeCue (isStage ch)) := by
  simp [exec, execStage, act, h]

theorem exec_fire (ch : ChanId) (s : State) (h : s.pins.resetHeld = false) :
    exec (.fire ch) s = .next (s.takeCue (· == .channel ch .fire)) := by
  simp [exec, execFire, act, h]

theorem exec_snapshot (ch : ChanId) (s : State) (h : s.pins.resetHeld = false) :
    exec (.snapshot ch) s = .next (s.takeCue (· == .channel ch .snapshot)) := by
  simp [exec, execSnapshot, act, h]

theorem exec_powerOn (s : State) (h : s.pins.resetHeld = false) :
    exec .powerOn s = .next (s.takeCue (· == .converter .powerOn)) := by
  simp [exec, execPowerOn, act, h]

theorem exec_powerOff (s : State) (h : s.pins.resetHeld = false) :
    exec .powerOff s = .next (s.takeCue (· == .converter .powerOff)) := by
  simp [exec, execPowerOff, act, h]

theorem exec_reference (s : State) (h : s.pins.resetHeld = false) :
    exec .reference s = .next (s.takeCue isReference) := by
  simp [exec, execReference, act, h]

theorem exec_convert (s : State) (h : s.pins.resetHeld = false) :
    exec .convert s = .next (s.takeCue isConvert) := by
  simp [exec, execConvert, act, h]

theorem exec_note (s : State) (h : s.pins.resetHeld = false) :
    exec .note s = .next (s.takeCue Action.isNote) := by
  simp [exec, execNote, act, h]

theorem exec_closePage (s : State) (h : s.pins.resetHeld = false) :
    exec .closePage s = .next (s.takeCue (· == .engine .closePage)) := by
  simp [exec, execClosePage, act, h]

theorem exec_endCue (s : State) (h : s.pins.resetHeld = false) :
    exec .endCue s = .next (s.takeCue (· == .engine .endCue)) := by
  simp [exec, execEndCue, act, h]

theorem exec_fireLinkDelivery (source target : ChanId) (s : State) (h : s.pins.resetHeld = false) :
    exec (.fireLinkDelivery source target) s = .next (s.takeFire source target) := by
  simp [exec, execFireLinkDelivery, act, h]

theorem exec_convertLinkRequest (source : ChanId) (s : State) (h : s.pins.resetHeld = false) :
    exec (.convertLinkRequest source) s = .next (s.takeLinkRequest source) := by
  simp [exec, execConvertLinkRequest, act, h]

theorem exec_warmUpEnd (s : State) (h : s.pins.resetHeld = false) :
    exec .warmUpEnd s = .next (s.takeReady .warming) := by
  simp [exec, execWarmUpEnd, act, h]

theorem exec_settlingEnd (s : State) (h : s.pins.resetHeld = false) :
    exec .settlingEnd s = .next (s.takeReady .settling) := by
  simp [exec, execSettlingEnd, act, h]

theorem exec_conversionEnd (s : State) (h : s.pins.resetHeld = false) :
    exec .conversionEnd s = .next (State.takeConversionEnd s) := by
  simp [exec, execConversionEnd, act, h]

theorem exec_requestPresent (r : Requester) (s : State) (h : s.pins.resetHeld = false) :
    exec (.requestPresent r) s = .next (s.presentRequest r) := by
  simp [exec, execRequestPresent, act, h]

theorem exec_grant (reading : Nat) (s : State) (h : s.pins.resetHeld = false) :
    exec (.grant reading) s = .next (s.takeGrant reading) := by
  simp [exec, execGrant, act, h]

theorem exec_busAccept (s : State) (h : s.pins.resetHeld = false) :
    exec .busAccept s = .next (State.takeAccept s) := by
  simp [exec, execBusAccept, act, h]

theorem exec_response (r : Requester) (issue : Byte) (okay : Bool) (data : BusData) (s : State) (h : s.pins.resetHeld = false) :
    exec (.response r issue okay data) s = .next (s.takeResponse r issue okay data) := by
  simp [exec, execResponse, act, h]

theorem exec_timeout (r : Requester) (reading : Nat) (s : State) (h : s.pins.resetHeld = false) :
    exec (.timeout r reading) s = .next (s.takeTimeout r reading) := by
  simp [exec, execTimeout, act, h]

theorem exec_initialFetchComplete (s : State) (h : s.pins.resetHeld = false) :
    exec .initialFetchComplete s = .next (State.takeInitialFetchComplete s) := by
  simp [exec, execInitialFetchComplete, act, h]

theorem exec_slotTaking (s : State) (h : s.pins.resetHeld = false) :
    exec .slotTaking s = .next (State.takeSlotTaking s) := by
  simp [exec, execSlotTaking, act, h]

theorem exec_closeMarkerReached (s : State) (h : s.pins.resetHeld = false) :
    exec .closeMarkerReached s = .next (State.takeCloseMarker s) := by
  simp [exec, execCloseMarkerReached, act, h]

theorem exec_endMarkerReached (s : State) (h : s.pins.resetHeld = false) :
    exec .endMarkerReached s = .next (State.takeEndMarker s) := by
  simp [exec, execEndMarkerReached, act, h]

theorem exec_deadlineExpiry (s : State) (h : s.pins.resetHeld = false) :
    exec .deadlineExpiry s = .next (State.takeDeadlineExpiry s) := by
  simp [exec, execDeadlineExpiry, act, h]

theorem exec_drainLimitExpiry (s : State) (h : s.pins.resetHeld = false) :
    exec .drainLimitExpiry s = .next (State.takeDrainLimitExpiry s) := by
  simp [exec, execDrainLimitExpiry, act, h]

theorem exec_loaderQuiet (s : State) (h : s.pins.resetHeld = false) :
    exec .loaderQuiet s = .next (State.takeLoaderQuiet s) := by
  simp [exec, execLoaderQuiet, act, h]

theorem exec_endMarkerPlace (s : State) (h : s.pins.resetHeld = false) :
    exec .endMarkerPlace s = .next (State.takeEndMarkerPlace s) := by
  simp [exec, execEndMarkerPlace, act, h]

theorem exec_endSummaryWrite (s : State) (h : s.pins.resetHeld = false) :
    exec .endSummaryWrite s = .next (State.takeSummary s) := by
  simp [exec, execEndSummaryWrite, act, h]

theorem exec_recordOffer (r : Rec) (s : State) (h : s.pins.resetHeld = false) :
    exec (.recordOffer r) s = .next (s.offer r) := by
  simp [exec, execRecordOffer, act, h]

theorem exec_deviceResetEnd (reading : Nat) (s : State) :
    exec (.deviceResetEnd reading) s = .next ((s.deviceResetEnd reading)) := rfl

end Sys2Proof.Machine
end

