-- ==== Sys2Proof/Laws/Dispatch.lean ====
section
/-! SUPPORT. Laws/Dispatch.lean: records offered, retirements and dispatches on time: what each does, once. -/

namespace Sys2Proof.Machine

theorem State.now_eq (s : State) : s.now = s.tb.count := rfl

/-! ## Offers -/

/-- Records offered depend on the writer and on now alone. -/
theorem State.offerAll_wr_congr {s s' : State} (hw : s.wr = s'.wr) (hn : s.tb.count = s'.tb.count) (l : List Rec) :
    (s.offerAll l).wr = (s'.offerAll l).wr := by
  induction l generalizing s s' with
  | nil => exact hw
  | cons r rest ih => exact ih (by simp [hw, State.now_eq, hn]) (by simpa using hn)

/-- A close the writer decides of itself leaves the queue, the page and the lost total. -/
@[simp] theorem Writer.decideClose_frame (w : Writer) (now : Tick) :
    (w.decideClose now).queue = w.queue ∧ (w.decideClose now).page = w.page ∧ (w.decideClose now).lost = w.lost ∧
      (w.decideClose now).state = w.state ∧ (w.decideClose now).reread = w.reread ∧
      (w.decideClose now).starveCount = w.starveCount ∧ (w.decideClose now).faultRecord = w.faultRecord ∧
      (w.decideClose now).pathFailed = w.pathFailed ∧ (w.decideClose now).endTaken = w.endTaken ∧
      (w.decideClose now).aborting = w.aborting ∧ (w.decideClose now).flushing = w.flushing := by
  simp only [Writer.decideClose]
  (repeat' split) <;> simp [Writer.beginClose]

/-- An offered record joins a queue with a free place (R125). -/
theorem Writer.offer_joins {w : Writer} (now : Tick) (r : Rec) (hk : w.keeps = true) (hl : w.queue.length < 32) :
    (w.offer now r).queue = w.queue ++ [.record r] ∧ (w.offer now r).lost = w.lost := by
  simp [Writer.offer, hk, Writer.hasPlace, Config.resultPlaces, hl]

/-- An offered record that finds no place is lost (R125, R141, R144). -/
theorem Writer.offer_lost {w : Writer} (now : Tick) (r : Rec) (h : w.keeps = false ∨ 32 ≤ w.queue.length) :
    w.offer now r = { w with lost := satAdd w.lost 1 } := by
  rcases h with h | h
  · simp [Writer.offer, h, Writer.lose]
  · have : ¬ w.queue.length < 32 := by omega
    simp [Writer.offer, Writer.hasPlace, Config.resultPlaces, this, Writer.lose]

/-- An offer never makes the queue pass its 32 places (R124). -/
theorem Writer.offer_length {w : Writer} (now : Tick) (r : Rec) (h : w.queue.length ≤ 32) :
    (w.offer now r).queue.length ≤ 32 := by
  by_cases hk : w.keeps = true ∧ w.queue.length < 32
  · rw [(Writer.offer_joins now r hk.1 hk.2).1]; simp; omega
  · rw [Writer.offer_lost now r (by simp at hk; by_cases h1 : w.keeps = true <;> simp_all)]; exact h

/-- A saturating count rises by `n`, or stays at its largest value (R125). -/
theorem satAdd_toNat (c : Word) (n : Nat) : (satAdd c n).toNat = min (2 ^ 32 - 1) (c.toNat + n) := by
  have hc := c.isLt
  by_cases h : c.toNat + n < 2 ^ 32
  · simp only [satAdd, h, if_true, BitVec.toNat_ofNat, Nat.mod_eq_of_lt h]; omega
  · simp only [satAdd, h, if_false, BitVec.toNat_allOnes]; omega

/-! ## Dispatch on time -/

theorem dueNow_expired {s : State} {e : Entry} {rest : List Entry} (h : s.dueNow e rest) : s.expiredEntry = some e := by
  obtain ⟨_, h2, h3, h4⟩ := h
  simp [State.expiredEntry, h3, h2, h4]

/-- An entry due now leaves the Calendar and is dispatched, not late (R17). -/
theorem dueNow_take {s : State} {e : Entry} {rest : List Entry} (h : s.dueNow e rest) :
    s.takeExpiry = State.dispatch { s with cal := rest } e none := by
  have he := dueNow_expired h
  obtain ⟨_, _, h3, h4⟩ := h
  simp [State.takeExpiry, he, h3, State.handleEntry, State.lateness, h4, State.now]

/-- What a retirement on time with a plain outcome comes to, from a state that shares all but channels and
Converter with the state before the dispatch (R4 to R6). -/
theorem retireEntry_plain {s₀ s : State} {e : Entry} {rest : List Entry} {o : CueOutcome} {w : Writer}
    (ho : plainOutcome o = true)
    (h : s.cal = rest ∧ s.loader = s₀.loader ∧ s.wr = w ∧ s.win = s₀.win ∧ s.pending = s₀.pending ∧ s.eng = s₀.eng ∧
      s.tb = s₀.tb ∧ s.params = s₀.params ∧ s.links = s₀.links ∧ s.port = s₀.port ∧ s.pins = s₀.pins) :
    retiredPlain s₀ (s.retireEntry e o none) e rest o w := by
  obtain ⟨h1, h2, h3, h4, h5, h6, h7, h8, h9, h10, h11⟩ := h
  have hr : refusingOutcome o = false := by cases o <;> simp_all [plainOutcome, refusingOutcome]
  by_cases hrep : e.cue.report = true <;>
    simp [retiredPlain, retiredTo, State.retireEntry, hrep, ho, hr, State.retireAlerts, h1, h2, h3, h4, h5, h6, h7, h8,
      h9, h10, h11, State.retire, State.setLane, State.lane, State.offer, State.reportOf, cueReportOf, State.now]

/-- The same for an outcome that raises REFUSE (R5, R6). -/
theorem retireEntry_refused {s₀ s : State} {e : Entry} {rest : List Entry} {o : CueOutcome} {w : Writer}
    (ho : refusingOutcome o = true)
    (h : s.cal = rest ∧ s.loader = s₀.loader ∧ s.wr = w ∧ s.win = s₀.win ∧ s.pending = s₀.pending ∧ s.eng = s₀.eng ∧
      s.tb = s₀.tb ∧ s.params = s₀.params ∧ s.links = s₀.links ∧ s.port = s₀.port ∧ s.pins = s₀.pins) :
    retiredRefused s₀ (s.retireEntry e o none) e rest o w := by
  obtain ⟨h1, h2, h3, h4, h5, h6, h7, h8, h9, h10, h11⟩ := h
  have hr : plainOutcome o = false := by cases o <;> simp_all [plainOutcome, refusingOutcome]
  simp [retiredRefused, retiredTo, State.retireEntry, ho, hr, State.retireAlerts, h1, h2, h3, h4, h5, h6, h7, h8, h9,
    h10, h11, State.retire, State.setLane, State.lane, State.offer, State.reportOf, cueReportOf, State.raise, Alert.mask,
    State.now]

/-- A channel verb dispatched on time with a plain outcome. -/
theorem takeExpiry_channel_plain {s : State} {e : Entry} {rest : List Entry} (h : s.dueNow e rest) {ch : ChanId}
    {v : ChanVerb} (ha : e.cue.action = .channel ch v) {o : CueOutcome} {c : Channel} {recs : List Rec}
    (hr : (s.chan ch).take ch s.now e.cue.tag v = (c, o, recs)) (ho : plainOutcome o = true) :
    retiredPlain s s.takeExpiry e rest o (s.offerAll recs).wr ∧ onlyChannel s s.takeExpiry ch c := by
  rw [dueNow_take h]
  have hc : State.chan { s with cal := rest } ch = s.chan ch := rfl
  have hn : State.now { s with cal := rest } = s.now := rfl
  simp only [State.dispatch, ha, State.dispatchChannel, hc, hn, hr, dispatchOutcome]
  refine ⟨retireEntry_plain ho ?_, ?_⟩
  · have hw : ∀ u : State, u.wr = s.wr → u.tb.count = s.tb.count → (u.offerAll recs).wr = (s.offerAll recs).wr :=
      fun u h₁ h₂ => State.offerAll_wr_congr h₁ h₂ recs
    simp
    exact hw _ rfl rfl
  · simp [onlyChannel, State.setChan]

/-- A channel verb dispatched on time and refused. -/
theorem takeExpiry_channel_refused {s : State} {e : Entry} {rest : List Entry} (h : s.dueNow e rest) {ch : ChanId}
    {v : ChanVerb} (ha : e.cue.action = .channel ch v) {o : CueOutcome}
    (hr : (s.chan ch).take ch s.now e.cue.tag v = (s.chan ch, o, [])) (ho : refusingOutcome o = true) :
    retiredRefused s s.takeExpiry e rest o s.wr ∧ onlyChannel s s.takeExpiry ch (s.chan ch) := by
  rw [dueNow_take h]
  have hc : State.chan { s with cal := rest } ch = s.chan ch := rfl
  have hn : State.now { s with cal := rest } = s.now := rfl
  simp only [State.dispatch, ha, State.dispatchChannel, hc, hn, hr, dispatchOutcome]
  refine ⟨retireEntry_refused ho ?_, ?_⟩
  · simp [State.offerAll]
  · simp [onlyChannel, State.setChan, State.offerAll]

/-- The row of an entry's verb is the same dispatch as EXPIRY (assumption log 4). -/
theorem exec_rowOf {s : State} {e : Entry} (hf : s.pins.resetHeld = false) (h : s.expiredEntry = some e) :
    exec (rowOf e.cue.action) s = .next s.takeExpiry := by
  unfold rowOf
  split <;> rename_i ha <;>
    simp [exec, execSet, execStart, execStop, execPause, execResume, execStage, execFire, execSnapshot, execPowerOn,
      execPowerOff, execReference, execConvert, execNote, execClosePage, execEndCue, act, hf, State.takeCue, h, ha, isSet,
      isStage, isReference, isConvert, Action.isNote]

/-! ## The Calendar's order (R14) -/

theorem insertEntry_perm (e : Entry) (l : List Entry) : (insertEntry e l).Perm (e :: l) := by
  induction l with
  | nil => exact List.Perm.refl _
  | cons f rest ih =>
    simp only [insertEntry]
    split
    · exact List.Perm.refl _
    · exact (List.Perm.cons f ih).trans (List.Perm.swap e f rest)

@[simp] theorem insertEntry_length (e : Entry) (l : List Entry) : (insertEntry e l).length = l.length + 1 := by
  simpa using (insertEntry_perm e l).length_eq

/-- Calendar order spelled out (R14): due time, then lane number, then lane sequence number. -/
theorem Entry.before_iff (a b : Entry) :
    a.before b = true ↔ a.cue.due.toNat < b.cue.due.toNat ∨ (a.cue.due = b.cue.due ∧
      (a.lane < b.lane ∨ (a.lane = b.lane ∧ a.seq.toNat < b.seq.toNat))) := by
  simp [Entry.before]

theorem Entry.before_trans {a b c : Entry} (h₁ : a.before b = true) (h₂ : c.before b = false) : c.before a = false := by
  simp only [Entry.before, Bool.or_eq_true, Bool.and_eq_true, Bool.or_eq_false_iff, Bool.and_eq_false_iff,
    decide_eq_true_eq, decide_eq_false_iff_not, beq_iff_eq, beq_eq_false_iff_ne, ne_eq] at *
  have hd : ∀ x y : Entry, x.cue.due = y.cue.due ↔ x.cue.due.toNat = y.cue.due.toNat :=
    fun x y => ⟨fun h => by rw [h], fun h => BitVec.eq_of_toNat_eq h⟩
  have hl : ∀ x y : Entry, x.lane = y.lane ↔ x.lane.val = y.lane.val := fun x y => Fin.ext_iff
  simp only [hd, hl, Fin.lt_def] at *
  omega

theorem insertEntry_ordered (e : Entry) {l : List Entry} (h : l.Pairwise fun a b => b.before a = false) :
    (insertEntry e l).Pairwise fun a b => b.before a = false := by
  induction l with
  | nil => simp [insertEntry]
  | cons f rest ih =>
    rw [List.pairwise_cons] at h
    simp only [insertEntry]
    split
    · rename_i hb
      refine List.pairwise_cons.2 ⟨?_, List.pairwise_cons.2 h⟩
      intro x hx
      rcases List.mem_cons.1 hx with rfl | hx
      · by_contra hc
        rw [Bool.not_eq_false] at hc
        simp only [Entry.before, Bool.or_eq_true, Bool.and_eq_true, decide_eq_true_eq, beq_iff_eq] at hb hc
        have hd : x.cue.due = e.cue.due ↔ x.cue.due.toNat = e.cue.due.toNat :=
          ⟨fun h => by rw [h], fun h => BitVec.eq_of_toNat_eq h⟩
        have hd' : e.cue.due = x.cue.due ↔ e.cue.due.toNat = x.cue.due.toNat :=
          ⟨fun h => by rw [h], fun h => BitVec.eq_of_toNat_eq h⟩
        simp only [hd, hd', Fin.lt_def, Fin.ext_iff] at hb hc
        omega
      · exact Entry.before_trans hb (h.1 x hx)
    · rename_i hb
      refine List.pairwise_cons.2 ⟨?_, ih h.2⟩
      intro x hx
      rcases List.mem_cons.1 ((insertEntry_perm e rest).subset hx) with rfl | hx
      · simpa using hb
      · exact h.1 x hx

end Sys2Proof.Machine
end

