-- ==== Sys2Proof/Laws/Expiry.lean ====
section
/-! SUPPORT. Laws/Expiry.lean: what handling one expired entry leaves of the Calendar and of Engine Control, and how a run
of expiries unfolds into EXPIRY commands, once. -/

namespace Sys2Proof.Machine

theorem State.takeExpiry_of_none {s : State} (h : s.expiredEntry = none) : s.takeExpiry = s := by
  simp [State.takeExpiry, h]

theorem State.takeExpiries_of_none {s : State} (h : s.expiredEntry = none) (n : Nat) : s.takeExpiries n = s := by
  cases n <;> simp [State.takeExpiries, h]

theorem State.takeExpiries_succ (s : State) (n : Nat) : s.takeExpiries (n + 1) = s.takeExpiry.takeExpiries n := by
  by_cases h : s.expiredEntry.isSome
  · simp [State.takeExpiries, h]
  · have h' : s.expiredEntry = none := by simpa using h
    simp [State.takeExpiries, h', State.takeExpiry_of_none h', State.takeExpiries_of_none h']

/-- A run of expiries is as many EXPIRY commands. -/
theorem afterExpiries_takeExpiries (n : Nat) (s : State) (hf : s.free) : afterExpiries n s (s.takeExpiries n) := by
  induction n generalizing s with
  | zero => rfl
  | succ k ih =>
    have hx : exec .expiry s = .next s.takeExpiry := by
      simp only [State.free] at hf
      simp [exec, execExpiry, act, hf]
    rw [State.takeExpiries_succ]
    exact ⟨_, hx, ih _ (by simpa [State.free] using hf)⟩

theorem State.drainConverter_eng (s : State) :
    s.drainConverter.eng = { s.eng with converterIdle := (s.conv.drain s.now).1.idle } := by
  simp [State.drainConverter]

/-- The beginning of a drain empties the Calendar and records the end cause (R157). -/
theorem State.beginDrain_spec (s : State) (c : EndCause) :
    (s.beginDrain c).cal = [] ∧ (s.beginDrain c).eng.state = .draining ∧ (s.beginDrain c).eng.endCause = c ∧
      (s.beginDrain c).eng.markerPlaced = false ∧ (s.beginDrain c).eng.task = s.eng.task := by
  simp only [State.beginDrain, State.restartStarveCount_frame, State.drainConverter_frame, State.drainConverter_eng]
  simp [State.stopChannels, State.mapChans, State.cancelCues, State.cancelCalendar]

/-- An END cue that is dispatched begins the drain; any other entry leaves the other entries and Engine Control. -/
theorem State.handleEntry_spec (s : State) (e : Entry) (hp : s.eng.resetPending = false) :
    let ends : Prop := e.cue.action = .engine .endCue ∧ ¬ (e.cue.due.toNat < s.now.toNat ∧ e.cue.late = .skip)
    (ends → (s.handleEntry e).cal = [] ∧ (s.handleEntry e).eng.state = .draining ∧
      (s.handleEntry e).eng.endCause = .endCue) ∧
    (¬ ends → (s.handleEntry e).cal = s.cal ∧ (s.handleEntry e).eng = s.eng) := by
  simp only [State.handleEntry, State.lateness]
  constructor
  · rintro ⟨ha, hs⟩
    have key : ∀ l, (s.dispatch e l).cal = [] ∧ (s.dispatch e l).eng.state = .draining ∧
        (s.dispatch e l).eng.endCause = .endCue := by
      intro l
      simp only [State.dispatch, ha, State.dispatchEnd]
      rw [if_neg (by simp [hp])]
      have := State.beginDrain_spec (s.retireEntry e (dispatchOutcome l .done) l) .endCue
      exact ⟨this.1, this.2.1, this.2.2.1⟩
    by_cases hl : e.cue.due.toNat < s.now.toNat
    · have : e.cue.late ≠ .skip := fun h => hs ⟨hl, h⟩
      simp only [hl, if_true]
      split
      · simp_all
      · exact key _
    · simp only [hl, if_false]
      exact key _
  · intro h
    split
    · simp
    · next hx =>
      have ha : e.cue.action ≠ .engine .endCue := by
        refine fun ha => h ⟨ha, ?_⟩
        rintro ⟨h1, h2⟩
        simp [h1, h2] at hx
      simp only [State.dispatch]
      split <;> simp_all

end Sys2Proof.Machine
end

