-- ==== Sys2Proof/Laws/Formats.lean ====
section
/-! SUPPORT. Laws/Formats.lean: reading a field back out of bytes a format lays out (Chapter 9): what `le`, `zeros`,
`++` and `::` give `fieldOf`, once each. -/

namespace Sys2Proof.Machine

/-! ## Bytes as numbers -/

@[simp] theorem length_le (n : Nat) {w : Nat} (v : BitVec w) : (le n v).length = n := by
  induction n generalizing v with
  | zero => rfl
  | succ n ih => simp [le, ih]

/-- The n low bytes of a value, read back, are its value modulo 2^(8n). -/
theorem bytesNat_le (n : Nat) {w : Nat} (v : BitVec w) : bytesNat (le n v) = v.toNat % 2 ^ (8 * n) := by
  induction n generalizing v with
  | zero => simp [le, bytesNat, Nat.mod_one]
  | succ n ih =>
    simp only [le, bytesNat, ih, BitVec.toNat_setWidth, BitVec.toNat_ushiftRight, Nat.shiftRight_eq_div_pow]
    have : 2 ^ (8 * (n + 1)) = 2 ^ 8 * 2 ^ (8 * n) := by rw [← pow_add]; congr 1; omega
    rw [this, Nat.mod_mul]
    norm_num

@[simp] theorem bytesNat_zeros (n : Nat) : bytesNat (zeros n) = 0 := by
  induction n with
  | zero => rfl
  | succ n ih =>
    have h : zeros (n + 1) = 0 :: zeros n := rfl
    simp [h, bytesNat, ih]

/-! ## A field of bytes laid out one part after another -/

/-- A field that stands behind a first part. -/
theorem fieldOf_append_right (a b : List Byte) (off n k : Nat) (h : a.length = k) (hk : k ≤ off) :
    fieldOf (a ++ b) off n = fieldOf b (off - k) n := by
  unfold fieldOf
  rw [List.drop_append, h, List.drop_eq_nil_of_le (by omega), List.nil_append]

/-- A field that stands within a first part. -/
theorem fieldOf_append_left (a b : List Byte) (off n : Nat) (h : n + off ≤ a.length) :
    fieldOf (a ++ b) off n = fieldOf a off n := by
  unfold fieldOf
  rw [List.drop_append, List.take_append_of_le_length]
  simp
  omega

/-- A field that is the whole first part. -/
theorem fieldOf_append_head (a b : List Byte) (n : Nat) (h : a.length = n) : fieldOf (a ++ b) 0 n = bytesNat a := by
  unfold fieldOf
  simp [← h]

theorem fieldOf_whole (a : List Byte) (n : Nat) (h : a.length = n) : fieldOf a 0 n = bytesNat a := by
  unfold fieldOf
  simp [← h]

@[simp] theorem fieldOf_cons_zero (x : Byte) (b : List Byte) : fieldOf (x :: b) 0 1 = x.toNat := by
  simp [fieldOf, bytesNat]

theorem fieldOf_cons_pos (x : Byte) (b : List Byte) (off n : Nat) (h : 0 < off) :
    fieldOf (x :: b) off n = fieldOf b (off - 1) n := by
  unfold fieldOf
  cases off with
  | zero => omega
  | succ m => simp

end Sys2Proof.Machine
end

