-- ==== Sys2Proof/Laws/Links.lean ====
section
/-! SUPPORT. Laws/Links.lean: what a tick arrival adds to the link deliveries under way, and what taking one, or all of
them, leaves. -/

namespace Sys2Proof.Machine

/-- What tells deliveries apart when one is taken: the source, and the channel a FIRE names. -/
def LinkDelivery.key (d : LinkDelivery) : ChanId × Option ChanId :=
  (d.source, match d.link with
    | .fire n => some n
    | .none => none
    | .convert _ => none)

/-- An arrival's deliveries have links: a link field of NONE does nothing (R99). -/
theorem Channel.arrival_links (c : Channel) (i : ChanId) (now : Tick) (level : Level) :
    ∀ d ∈ (c.arrival i now level).2.1, d.link ≠ .none := by
  have key : ∀ (c : Channel) (k : EventKind), ∀ d ∈ c.linkAt i k, d.link ≠ .none := by
    intro c k d hd
    simp only [Channel.linkAt] at hd
    split at hd
    · cases k <;> simp only at hd <;> split at hd
      all_goals first
        | simp at hd; done
        | next h => simp only [List.mem_singleton] at hd; subst hd; exact h
    · simp at hd
  intro d hd
  simp only [Channel.arrival, Channel.count] at hd
  (repeat' split at hd) <;> first | exact key _ _ d hd | simp at hd

theorem State.takeArrival_links (s : State) (ch : ChanId) (level : Level) :
    (s.takeArrival ch level).links =
      s.links ++ (if s.arrivalDue ch then ((s.chan ch).arrival ch s.now level).2.1 else []) := by
  simp only [State.takeArrival]
  split <;> simp_all

/-- Taking a delivery removes one of its key. -/
theorem State.takeLink_links (s : State) (d : LinkDelivery) (hd : d.link ≠ .none) (hs : ∀ x ∈ s.links, x.link ≠ .none)
    (hm : ∃ x ∈ s.links, x.key = d.key) :
    ∃ x ∈ s.links, x.key = d.key ∧ (s.takeLink d).links = s.links.erase x := by
  obtain ⟨x, hx, hk⟩ := hm
  simp only [State.takeLink]
  split
  · next n hn =>
    have found : ∃ y, s.links.find? (·.firesFrom d.source n) = some y := by
      rw [← Option.isSome_iff_exists, List.find?_isSome]
      refine ⟨x, hx, ?_⟩
      simp only [LinkDelivery.key, hn] at hk
      simp only [LinkDelivery.firesFrom]
      rcases hxl : x.link with _ | _ | _ <;> simp_all
    obtain ⟨y, hy⟩ := found
    refine ⟨y, List.mem_of_find?_eq_some hy, ?_, by simp [State.takeFire, hy]⟩
    have := List.find?_some hy
    simp only [LinkDelivery.firesFrom, Bool.and_eq_true, beq_iff_eq] at this
    simp [LinkDelivery.key, this, hn]
  · next k hn =>
    have found : ∃ y, s.links.find? (·.converts d.source) = some y := by
      rw [← Option.isSome_iff_exists, List.find?_isSome]
      refine ⟨x, hx, ?_⟩
      simp only [LinkDelivery.key, hn] at hk
      have := hs x hx
      simp only [LinkDelivery.converts, LinkDelivery.asksConversion]
      rcases hxl : x.link with _ | _ | _ <;> simp_all
    obtain ⟨y, hy⟩ := found
    have := List.find?_some hy
    simp only [LinkDelivery.converts, Bool.and_eq_true, beq_iff_eq, LinkDelivery.asksConversion] at this
    refine ⟨y, List.mem_of_find?_eq_some hy, ?_, ?_⟩
    · rcases hyl : y.link with _ | _ | _ <;> simp_all [LinkDelivery.key]
    · simp only [State.takeLinkRequest, hy]
      rcases hyl : y.link with _ | _ | _ <;> simp_all
  · next hn => exact absurd hn hd

/-- Taking the deliveries of a list that holds those under way, in any order, leaves none. -/
theorem State.settleLinks_links (l : List LinkDelivery) (s : State) (hl : ∀ x ∈ l, x.link ≠ .none)
    (hs : ∀ x ∈ s.links, x.link ≠ .none) (hp : (s.links.map LinkDelivery.key).Perm (l.map LinkDelivery.key)) :
    (s.settleLinks l).links = [] := by
  induction l generalizing s with
  | nil => simpa [State.settleLinks] using hp
  | cons d rest ih =>
    simp only [State.settleLinks]
    have hm : ∃ x ∈ s.links, x.key = d.key := by
      have : d.key ∈ s.links.map LinkDelivery.key := hp.symm.subset (by simp)
      simpa using this
    obtain ⟨x, hx, hk, he⟩ := State.takeLink_links s d (hl d (by simp)) hs hm
    refine ih _ (fun y hy => hl y (by simp [hy])) (fun y hy => hs y (List.mem_of_mem_erase (he ▸ hy))) ?_
    have h1 : (s.links.map LinkDelivery.key).Perm (x.key :: (s.links.erase x).map LinkDelivery.key) := by
      simpa using (List.perm_cons_erase hx).map LinkDelivery.key
    have h2 := h1.symm.trans hp
    rw [hk] at h2
    rw [he]
    simpa using h2

end Sys2Proof.Machine
end

