-- ==== Sys2Proof/Laws/Session.lean ====
section
/-! SUPPORT. Laws/Session.lean: what the stop of a session does to the writer, the lanes and the port, once; which heads the
Calendar takes; what the port does with a request and a response; a lane's fault and where a lane moves on to; the writer
at work; reread requests; the end of an aborted initial fetch. -/

namespace Sys2Proof.Machine

/-! ## Records offered -/

theorem State.offerAll_wr (s : State) (l : List Rec) : (s.offerAll l).wr = s.wr.offered s.now l := by
  induction l generalizing s with
  | nil => rfl
  | cons r l ih => simp only [State.offerAll, Writer.offered, List.foldl]; rw [ih]; rfl

theorem Writer.offered_cons (w : Writer) (now : Tick) (r : Rec) (rs : List Rec) :
    w.offered now (r :: rs) = (w.offer now r).offered now rs := rfl

theorem Writer.offered_append (w : Writer) (now : Tick) (rs rs' : List Rec) :
    w.offered now (rs ++ rs') = (w.offered now rs).offered now rs' := List.foldl_append

/-- Offers leave the writer's state, page, requests and marks; a close they bring on is the writer's own. -/
@[simp] theorem Writer.offered_frame (w : Writer) (now : Tick) (rs : List Rec) :
    (w.offered now rs).state = w.state ∧ (w.offered now rs).page = w.page ∧ (w.offered now rs).reread = w.reread ∧
      (w.offered now rs).starveCount = w.starveCount ∧ (w.offered now rs).faultRecord = w.faultRecord ∧
      (w.offered now rs).pathFailed = w.pathFailed ∧ (w.offered now rs).endTaken = w.endTaken ∧
      (w.offered now rs).aborting = w.aborting ∧ (w.offered now rs).flushing = w.flushing := by
  induction rs generalizing w with
  | nil => simp [Writer.offered]
  | cons r rs ih =>
    rw [Writer.offered_cons]
    simp only [ih]
    unfold Writer.offer
    split <;> simp [Writer.lose]

/-- Offers to a writer that keeps nothing raise the lost total alone. -/
theorem Writer.offered_of_not_keeps {w : Writer} (now : Tick) (h : w.keeps = false) (rs : List Rec) :
    w.offered now rs = { w with lost := (w.offered now rs).lost } := by
  induction rs generalizing w with
  | nil => rfl
  | cons r rs ih =>
    have e : w.offer now r = w.lose 1 := by simp [Writer.offer, h]
    rw [Writer.offered_cons, e, ih (w := w.lose 1) h]
    rfl

/-- A writer that is not OPEN makes no close of an offer. -/
theorem Writer.offered_task {w : Writer} (now : Tick) (h : w.state ≠ .opened) (rs : List Rec) :
    (w.offered now rs).task = w.task := by
  induction rs generalizing w with
  | nil => rfl
  | cons r rs ih =>
    have hs : (w.offer now r).state = w.state := (Writer.offered_frame w now [r]).1
    rw [Writer.offered_cons, ih (by rw [hs]; exact h)]
    unfold Writer.offer
    split
    · unfold Writer.decideClose; split <;> simp_all
    · rfl

/-! ## The lost total (R125) -/

theorem satAdd_satAdd (c : Word) (n m : Nat) : satAdd (satAdd c n) m = satAdd c (n + m) := by
  apply BitVec.eq_of_toNat_eq
  simp only [satAdd_toNat]
  have := c.isLt
  omega

theorem recordCount_append (a b : List Item) : recordCount (a ++ b) = recordCount a + recordCount b := by
  induction a with
  | nil => simp [recordCount]
  | cons x a ih =>
    cases x <;> simp only [List.cons_append, recordCount, ih]
    omega

/-- An offered record is kept or lost: once the queue is discarded the lost total is the same. -/
theorem Writer.offer_total (w : Writer) (now : Tick) (r : Rec) :
    satAdd (w.offer now r).lost (recordCount (w.offer now r).queue) = satAdd w.lost (recordCount w.queue + 1) := by
  unfold Writer.offer
  split
  · simp [recordCount_append, recordCount]
  · simp only [Writer.lose, satAdd_satAdd]
    rw [Nat.add_comm]

theorem Writer.offered_total (w : Writer) (now : Tick) (rs : List Rec) :
    satAdd (w.offered now rs).lost (recordCount (w.offered now rs).queue) =
      satAdd w.lost (recordCount w.queue + rs.length) := by
  induction rs generalizing w with
  | nil => rfl
  | cons r rs ih =>
    rw [Writer.offered_cons, ih, ← satAdd_satAdd, Writer.offer_total, satAdd_satAdd, List.length_cons]
    congr 1
    omega

/-- Offers to a writer that keeps nothing are all lost. -/
theorem Writer.offered_lost {w : Writer} (now : Tick) (h : w.keeps = false) (rs : List Rec) :
    (w.offered now rs).lost = satAdd w.lost rs.length := by
  induction rs generalizing w with
  | nil =>
    apply BitVec.eq_of_toNat_eq
    have := w.lost.isLt
    simp [satAdd_toNat, Writer.offered]
    omega
  | cons r rs ih =>
    have e : w.offer now r = w.lose 1 := by simp [Writer.offer, h]
    rw [Writer.offered_cons, e, ih (w := w.lose 1) h]
    simp only [Writer.lose, satAdd_satAdd, List.length_cons]
    congr 1
    omega

/-! ## Lanes -/

theorem Lane.releaseHeld_state (l : Lane) : (l.releaseHeld).state = l.state := by
  simp only [Lane.releaseHeld, Lane.countRetired]; (repeat' split) <;> rfl

theorem Lane.retire_state (l : Lane) (r) : (l.retire r).state = l.state := by
  simp [Lane.retire, Lane.releaseHeld_state, Lane.countRetired]

theorem Lane.retire_current (l : Lane) (r) : (l.retire r).current = l.current := by
  cases hh : l.head with
  | none => simp [Lane.retire, Lane.releaseHeld, Lane.countRetired, hh]
  | some x =>
    cases hb : x.body <;> simp [Lane.retire, Lane.releaseHeld, Lane.countRetired, hh, hb]
    split <;> rfl

theorem Lane.retire_acceptedHead (l : Lane) (r) : (l.retire r).acceptedHead = l.acceptedHead := by
  obtain ⟨h1⟩ : l.head = l.head ∧ True := ⟨rfl, trivial⟩
  cases hh : l.head with
  | none => simp [Lane.retire, Lane.releaseHeld, Lane.countRetired, Lane.acceptedHead, hh]
  | some x =>
    cases hb : x.body with
    | accepted c => simp [Lane.retire, Lane.releaseHeld, Lane.countRetired, Lane.acceptedHead, hh, hb]
    | held o =>
      simp only [Lane.retire, Lane.releaseHeld, Lane.countRetired, Lane.acceptedHead, hh, hb]
      by_cases h : l.cuesRetired + 1 = x.seq
      · rw [if_pos h]
      · rw [if_neg h]; simp [hb]
theorem Lane.stopped_acceptedHead (l : Lane) : l.stopped.acceptedHead = l.acceptedHead := by
  unfold Lane.stopped; split <;> (try split) <;> rfl

theorem Lane.stopped_current (l : Lane) : l.stopped.current = l.current := by
  unfold Lane.stopped; split <;> (try split) <;> rfl

theorem Lane.stopped_cuesRetired (l : Lane) : l.stopped.cuesRetired = l.cuesRetired := by
  unfold Lane.stopped; split <;> (try split) <;> rfl

theorem Lane.stopped_head (l : Lane) : l.stopped.head = l.head := by
  unfold Lane.stopped; split <;> (try split) <;> rfl

theorem State.lane_offer (s : State) (r : Rec) (i : LaneId) : (s.offer r).lane i = s.lane i := rfl

theorem State.stopLane_lane_same (s : State) (i : LaneId) (n) :
    (s.stopLane i n).lane i = (s.lane i).stopped.cancelHead := by
  simp only [State.stopLane]
  generalize n + _ = m
  split
  · simp
  · rw [State.lane_offer]; simp

theorem State.stopLane_lane_ne (s : State) (i j : LaneId) (n) (h : i ≠ j) : (s.stopLane i n).lane j = s.lane j := by
  simp only [State.stopLane]
  generalize n + _ = m
  split
  · exact State.lane_setLane_ne _ _ h
  · rw [State.lane_offer]; exact State.lane_setLane_ne _ _ h

theorem State.stopLanes_lane (s : State) (c) (i : LaneId) : (s.stopLanes c).lane i = (s.lane i).stopped.cancelHead := by
  simp only [State.stopLanes]
  match i with
  | 0 =>
    rw [State.stopLane_lane_ne _ 3 0 _ (by decide), State.stopLane_lane_ne _ 2 0 _ (by decide),
      State.stopLane_lane_ne _ 1 0 _ (by decide), State.stopLane_lane_same]
  | 1 =>
    rw [State.stopLane_lane_ne _ 3 1 _ (by decide), State.stopLane_lane_ne _ 2 1 _ (by decide),
      State.stopLane_lane_same, State.stopLane_lane_ne _ 0 1 _ (by decide)]
  | 2 =>
    rw [State.stopLane_lane_ne _ 3 2 _ (by decide), State.stopLane_lane_same,
      State.stopLane_lane_ne _ 1 2 _ (by decide), State.stopLane_lane_ne _ 0 2 _ (by decide)]
  | 3 =>
    rw [State.stopLane_lane_same, State.stopLane_lane_ne _ 2 3 _ (by decide),
      State.stopLane_lane_ne _ 1 3 _ (by decide), State.stopLane_lane_ne _ 0 3 _ (by decide)]

theorem State.cancelEntries_lane (s : State) (cal : List Entry) (i : LaneId) :
    (s.cancelEntries cal).lane i = s.laneRetired cal i := by
  induction cal generalizing s with
  | nil => rfl
  | cons e l ih =>
    simp only [State.cancelEntries]; rw [ih]
    simp only [State.laneRetired, State.retire]
    by_cases he : e.lane = i
    · subst he; simp
    · simp [he, State.lane_setLane_ne _ _ he]

theorem State.laneRetired_frame (s : State) (cal) (i) :
    (s.laneRetired cal i).acceptedHead = (s.lane i).acceptedHead ∧
      (s.laneRetired cal i).current = (s.lane i).current := by
  unfold State.laneRetired
  generalize (cal.filter fun e => e.lane == i) = l
  generalize s.lane i = x
  induction l generalizing x with
  | nil => exact ⟨rfl, rfl⟩
  | cons e l ih =>
    simp only [List.foldl]
    rw [(ih _).1, (ih _).2, Lane.retire_acceptedHead, Lane.retire_current]
    exact ⟨rfl, rfl⟩

/-! ## The session stop (R23, R48, R49, R122) -/

/-- Records offered for those lanes that have one. -/
theorem Writer.offered_filter (w : Writer) (now : Tick) (p : LaneId → Bool) (f : LaneId → Rec) (i : LaneId)
    (l : List LaneId) :
    w.offered now (((i :: l).filter p).map f) = (if p i then w.offer now (f i) else w).offered now ((l.filter p).map f) := by
  by_cases h : p i
  · simp only [List.filter, h, List.map, Writer.offered_cons, if_true]
  · simp only [List.filter, h, if_false, Bool.false_eq_true]

theorem State.stopLane_wr (s : State) (i n) :
    (s.stopLane i n).wr =
      (let total := n + (if (s.lane i).acceptedHead.isSome then 1 else 0)
       if total = 0 then s.wr
       else s.wr.offer s.now (.laneEvent i .cancelled (s.lane i).current (BitVec.ofNat 32 total) s.now)) := by
  simp only [State.stopLane]
  simp only [Lane.stopped_acceptedHead, Lane.stopped_current]
  generalize n + _ = m
  split <;> rfl

theorem State.cancelCues_wr (s : State) : s.cancelCues.wr = s.wr.offered s.now (s.cancelRecords s.cal) := by
  have hl : ∀ i, s.cancelCalendar.lane i = s.laneRetired s.cal i := by
    intro i; unfold State.cancelCalendar; rw [State.cancelEntries_lane]; rfl
  have hw : s.cancelCalendar.wr = s.wr := by simp [State.cancelCalendar]
  have hn : s.cancelCalendar.now = s.now := by simp [State.now, State.cancelCalendar]
  simp only [State.cancelCues, State.stopLanes, State.stopLane_wr]
  have n0 : ∀ (t : State) i n, (t.stopLane i n).now = t.now := by intro t i n; simp [State.now]
  simp only [n0, hn, hw]
  rw [State.stopLane_lane_ne _ 2 3 _ (by decide), State.stopLane_lane_ne _ 1 3 _ (by decide),
    State.stopLane_lane_ne _ 0 3 _ (by decide), State.stopLane_lane_ne _ 1 2 _ (by decide),
    State.stopLane_lane_ne _ 0 2 _ (by decide), State.stopLane_lane_ne _ 0 1 _ (by decide)]
  simp only [hl, (State.laneRetired_frame _ _ _).1, (State.laneRetired_frame _ _ _).2]
  have hf : List.finRange 4 = [0, 1, 2, 3] := by decide
  have hc : ∀ i, entriesOf s.cal i + (if (s.lane i).acceptedHead.isSome then 1 else 0) = s.cancelledOf s.cal i :=
    fun _ => rfl
  unfold State.cancelRecords
  rw [hf, Writer.offered_filter, Writer.offered_filter, Writer.offered_filter, Writer.offered_filter]
  simp only [hc, bne_iff_ne, ne_eq, ite_not]
  rfl

theorem State.stopChannels_lane (s : State) (i : LaneId) : s.stopChannels.lane i = s.lane i := rfl

/-- An abort or a wind-down offers the cancellations of the lanes, then the Converter's drops. -/
theorem State.stopBlocks_wr (s : State) : s.stopBlocks.wr = s.wr.offered s.now (s.stopRecords s.cal) := by
  have hn : s.cancelCues.withdrawLoader.stopChannels.now = s.now := by simp [State.now_eq]
  have hc : s.cancelCues.withdrawLoader.stopChannels.conv = s.conv := by simp
  have hw : s.cancelCues.withdrawLoader.stopChannels.wr = s.wr.offered s.now (s.cancelRecords s.cal) := by
    simp [State.cancelCues_wr]
  have hd : ((s.conv.inFlight.map Conversion.request).toList ++ s.conv.queue).map
      (fun r => Rec.drop r.input r.source .fault r.tag s.now) = (s.conv.abort s.now).2 := by
    simp only [Converter.abort, Converter.held, dropRecord]
    cases s.conv.inFlight <;> rfl
  unfold State.stopBlocks State.abortConverter State.stopRecords
  rw [Writer.offered_append, hd, ← hw]
  generalize s.cancelCues.withdrawLoader.stopChannels = z at hn hc ⊢
  rw [State.offerAll_wr, hc, hn]
  exact congrArg (fun n => z.wr.offered n _) hn

theorem State.stopBlocks_cal (s : State) : s.stopBlocks.cal = [] := by
  simp [State.stopBlocks, State.abortConverter, State.cancelCues, State.cancelCalendar]

/-- A stopped lane whose head is cancelled runs no more, and holds no accepted head (R48, R49). -/
theorem Lane.stopped_cancelHead (l : Lane) :
    l.stopped.cancelHead.state ≠ .active ∧ l.stopped.cancelHead.state ≠ .waiting ∧
      l.stopped.cancelHead.state ≠ .blocked ∧ l.stopped.cancelHead.acceptedHead = none := by
  have h1 : l.stopped.state ≠ .active ∧ l.stopped.state ≠ .waiting ∧ l.stopped.state ≠ .blocked := by
    unfold Lane.stopped
    split <;> (try split) <;> simp_all
  unfold Lane.cancelHead
  cases h : l.stopped.acceptedHead with
  | none => exact ⟨h1.1, h1.2.1, h1.2.2, h⟩
  | some x =>
    simp only [Lane.retire_state, Lane.retire_acceptedHead]
    exact ⟨h1.1, h1.2.1, h1.2.2, rfl⟩

/-- What an abort or a wind-down makes of the Calendar, the lanes, the channels and the Converter (R159, R161). -/
theorem State.stopBlocks_spec (s : State) :
    s.stopBlocks.cal = [] ∧
      (∀ i : LaneId, (s.stopBlocks.lane i).state ≠ .active ∧ (s.stopBlocks.lane i).state ≠ .waiting ∧
        (s.stopBlocks.lane i).state ≠ .blocked ∧ (s.stopBlocks.lane i).acceptedHead = none) ∧
      (∀ ch : ChanId, s.stopBlocks.chan ch = (s.chan ch).sessionStop) ∧
      s.stopBlocks.conv.power = .off ∧ s.stopBlocks.conv.queue = [] ∧ s.stopBlocks.conv.inFlight = none ∧
      s.stopBlocks.conv.closing = some .fault := by
  refine ⟨s.stopBlocks_cal, fun i => ?_, fun ch => ?_, ?_⟩
  · have h : s.stopBlocks.lane i = ((s.cancelCalendar.lane i).stopped).cancelHead := by
      have w : ∀ x : State, x.withdrawLoader.loader.lanes = x.loader.lanes := by
        intro x
        unfold State.withdrawLoader
        split <;> rfl
      rw [← State.stopLanes_lane s.cancelCalendar s.cal i]
      simp [State.lane, State.stopBlocks, State.abortConverter, w, State.stopChannels, State.cancelCues]
    rw [h]
    exact Lane.stopped_cancelHead _
  · simp [State.stopBlocks, State.abortConverter, State.stopChannels, State.mapChans, State.chan]
  · simp [State.stopBlocks, State.abortConverter, Converter.abort, Converter.emptied]

/-- Of Engine Control a session stop sets the report that the Converter is idle. -/
theorem State.stopBlocks_eng (s : State) : s.stopBlocks.eng = { s.eng with converterIdle := true } := by
  unfold State.stopBlocks State.abortConverter
  simp

/-- What an abort or a wind-down produces depends on the lanes, the Converter and now alone. -/
theorem State.stopRecords_congr {x s : State} (h1 : x.loader = s.loader) (h2 : x.conv = s.conv)
    (h3 : x.tb.count = s.tb.count) (cal : List Entry) : x.stopRecords cal = s.stopRecords cal := by
  have hl : ∀ i, x.lane i = s.lane i := fun i => by simp only [State.lane, h1]
  have hn : x.now = s.now := h3
  have hc : ∀ i, x.cancelledOf cal i = s.cancelledOf cal i := fun i => by simp only [State.cancelledOf, hl]
  simp only [State.stopRecords, State.cancelRecords, hl, hn, hc, h2]

/-- Of the port a session stop withdraws the Loader's waiting request. -/
theorem State.stopBlocks_port (s : State) : s.stopBlocks.port = { s.port with loader := s.port.loader.withdrawn } := by
  have hp : s.cancelCues.port = s.port := by simp
  have key : ∀ x : State, x.withdrawLoader.port = { x.port with loader := x.port.loader.withdrawn } := by
    intro x
    have h0 : x.port = { x.port with loader := x.port.loader } := rfl
    unfold State.withdrawLoader
    cases h : x.port.loader
    · simp only [PortRequest.isWaiting, PortRequest.withdrawn, Bool.false_eq_true, if_false]; rw [h] at h0; exact h0
    · rfl
    · simp only [PortRequest.isWaiting, PortRequest.withdrawn, Bool.false_eq_true, if_false]; rw [h] at h0; exact h0
  unfold State.stopBlocks
  simp
  rw [key, hp]

/-- A writer that takes an abort discards its queue; its request goes when it waits outside a close (R141). -/
theorem State.writerAbort_wr {s : State} (h : s.wr.state ≠ .done) :
    s.writerAbort.wr = { s.wr.discardQueue with
        aborting := true
        task := if s.port.writer.isWaiting && !s.wr.task.closing then .none else s.wr.task } ∧
      s.writerAbort.port.writer =
        (if s.port.writer.isWaiting && !s.wr.task.closing then .none else s.port.writer) := by
  simp only [State.writerAbort, h, if_false, State.withdrawWriter]
  constructor <;> split <;> simp_all [Writer.discardQueue, Writer.lose]

/-! ## Heads taken (R15) -/

theorem State.offeredCount_pos {s : State} {i : LaneId} {x : Head × Cue} (h : s.offeredHead i = some x) :
    0 < s.offeredCount := by
  unfold State.offeredCount
  rw [List.length_pos_iff_exists_mem]
  exact ⟨i, List.mem_filter.2 ⟨List.mem_finRange i, by simp [h]⟩⟩

/-- An offered head is taken where every head offered has a free entry, or where it comes before the others. -/
theorem State.headTaken_eq_some {s : State} {i : LaneId} {h : Head} {c : Cue} (ho : s.offeredHead i = some (h, c))
    (hc : s.cal.length + s.offeredCount ≤ 48 ∨ (s.cal.length < 48 ∧ ∀ j, s.takenBefore i c.due j = false)) :
    s.headTaken i = some (h, c) := by
  have hp := State.offeredCount_pos ho
  have hfree : s.freeEntries = 48 - s.cal.length := rfl
  have key : s.offeredCount ≤ s.freeEntries ∨ (0 < s.freeEntries ∧ s.leads i = true) := by
    rcases hc with h1 | ⟨h1, h2⟩
    · left; omega
    · exact .inr ⟨by omega, by simp [State.leads, ho, h2]⟩
  unfold State.headTaken
  rw [ho, if_pos]
  simp only [Bool.or_eq_true, Bool.and_eq_true, decide_eq_true_eq]
  exact key

/-- It waits at a full Calendar, and behind an earlier head where the free entries are too few. -/
theorem State.headTaken_eq_none {s : State} {i : LaneId} {h : Head} {c : Cue} (ho : s.offeredHead i = some (h, c))
    (hc : 48 ≤ s.cal.length ∨ (48 < s.cal.length + s.offeredCount ∧ ∃ j, s.takenBefore i c.due j = true)) :
    s.headTaken i = none := by
  have hp := State.offeredCount_pos ho
  have hfree : s.freeEntries = 48 - s.cal.length := rfl
  have key : ¬ s.offeredCount ≤ s.freeEntries ∧ (0 < s.freeEntries → s.leads i = false) := by
    rcases hc with h1 | ⟨h1, j, h2⟩
    · exact ⟨by omega, by omega⟩
    · refine ⟨by omega, fun _ => ?_⟩
      have : ((List.finRange 4).all fun j => !s.takenBefore i c.due j) = false := by
        rw [List.all_eq_false]; exact ⟨j, List.mem_finRange j, by simp [h2]⟩
      simp only [State.leads, ho]; exact this
  unfold State.headTaken
  rw [if_neg]
  simp only [Bool.or_eq_true, Bool.and_eq_true, decide_eq_true_eq, not_or, not_and]
  exact ⟨key.1, fun k => by simp [key.2 k]⟩

/-! ## The port -/

/-- A request in the window waits for a grant; any other is answered OUTSIDE_WINDOW (R169). -/
theorem State.present_eq {s : State} (r : Requester) (rq : Request) {w : Window} (hw : s.port.window = some w) :
    (w.covers rq.addr rq.len → s.present r rq = { s with port := s.port.setRequest r (.waiting rq) }) ∧
      (¬ w.covers rq.addr rq.len → s.present r rq = s.answer r rq .outsideWindow) := by
  constructor
  · intro h
    simp [State.present, State.windowPasses, hw, Window.holds, Window.covers] at *
    simp [h]
  · intro h
    simp [State.present, State.windowPasses, hw, Window.holds, Window.covers] at *
    intro a b; have := h a; omega

/-- A matched response reaches its requester, whose request has become none (R172). -/
theorem State.takeResponse_matched {s : State} {r : Requester} {rq : Request} {n : Byte} {g : Nat}
    (hq : s.port.quiet = none) (hp : s.port.request r = .outstanding rq n g) (ok : Bool) (d : BusData) :
    s.takeResponse r n ok d = State.answer { s with port := s.port.ended r } r rq (responseAnswer ok d) := by
  simp only [State.takeResponse, hq, hp, if_true]

theorem State.afterAnswer_of_state {s : State} (h : s.eng.state ≠ .preparing) : s.afterAnswer = s := by
  simp [State.afterAnswer, h]

/-- An answer of a Loader that takes cues ends no preparation that was aborted. -/
theorem State.afterAnswer_of_takesCues {s : State} (h : s.takesCues = true) : s.afterAnswer = s := by
  simp [State.takesCues, State.initialFetch] at h
  unfold State.afterAnswer
  rw [if_neg]
  rcases h with (h | h) | h <;> simp [h]

/-! ## Lanes move on (R38, R46) -/

theorem changeNewest_eq_atNewest (f : TrailEntry → TrailEntry) (l : List TrailEntry) :
    changeNewest f l = TrailEntry.atNewest f l := by
  induction l with
  | nil => rfl
  | cons x l ih =>
    cases l with
    | nil => rfl
    | cons y l =>
      simp only [changeNewest, ih, TrailEntry.atNewest]
      simp [List.dropLast]

/-- A lane enters a segment that does not stand in its trail, and no other. -/
theorem Lane.enter_eq (l : Lane) (a : Word) :
    ((∀ x ∈ l.trail, x.address ≠ a) → l.enter a = some (l.entered a)) ∧
      ((∃ x ∈ l.trail, x.address = a) → l.enter a = none) := by
  constructor <;> intro h <;> unfold Lane.enter
  · rw [if_neg (by simpa using h)]
    rfl
  · rw [if_pos (by simpa using h)]

/-- A lane fault, once: the lane is FAULTED, LANE is set, and the LANE_EVENT of the cause is offered. -/
theorem State.laneFault_spec (s : State) (i : LaneId) (cause : LaneFaultCause) (seg : Word) :
    let t := s.laneFault i cause seg
    (t.lane i).state = .faulted ∧ t.win = { s.win with alert := s.win.alert ||| 0x10 } ∧
      t.wr = s.wr.offer s.now
        (.laneEvent i (.fault cause) seg (if (s.lane i).acceptedHead.isSome then 1 else 0) s.now) ∧
      t.cal = s.cal ∧ t.chans = s.chans ∧ t.conv = s.conv ∧ t.eng = s.eng ∧ t.tb = s.tb ∧ t.pins = s.pins := by
  simp only [State.laneFault]
  refine ⟨?_, ?_, ?_, ?_⟩
  · have e : ∀ x : State, (x.raise .lane).lane i = x.lane i := fun _ => rfl
    rw [e, State.lane_offer, State.lane_setLane_same]
    unfold Lane.fault
    dsimp only
    split <;> simp [Lane.releaseHeld_state]
  · simp [State.raise, Alert.mask]
  · rfl
  · simp

theorem State.moveOn_of_unfinished {s : State} {i : LaneId} (h : (s.lane i).finish = none) : s.moveOn i = s := by
  simp [State.moveOn, Lane.mustMoveOn, h]

/-- An ACTIVE lane whose segment was seen finished: where it goes at the final fill, and that it stays below it. -/
theorem State.moveOn_of_finished {s : State} {i : LaneId} {f : Finish} (h : (s.lane i).finish = some f) :
    let l := s.lane i
    (l.fetchIndex ≠ f.fill → s.moveOn i = s) ∧
      (l.fetchIndex = f.fill →
        (f.next = 0 → s.moveOn i = s.setLane i { l with state := .ended, reread := .absent }) ∧
        (f.next ≠ 0 → 4 ≤ l.trail.length →
          s.moveOn i = s.setLane i { l with state := .blocked, pendingNext := some f.next, reread := .absent }) ∧
        (f.next ≠ 0 → l.trail.length < 4 → (∀ y ∈ l.trail, y.address ≠ f.next) →
          s.moveOn i = s.setLane i (l.entered f.next)) ∧
        (f.next ≠ 0 → l.trail.length < 4 → (∃ y ∈ l.trail, y.address = f.next) →
          s.moveOn i = s.laneFault i .badNext l.current)) := by
  intro l
  constructor
  · intro hne
    unfold State.moveOn
    simp only [Lane.mustMoveOn, h]
    rw [if_neg (by simpa using hne)]
  · intro he
    have hm : (s.lane i).mustMoveOn = true := by
      simp only [Lane.mustMoveOn, h]
      simpa using he
    unfold State.moveOn
    simp only [hm, if_true, Lane.moveOn, h]
    refine ⟨fun a => ?_, fun a b => ?_, fun a b c => ?_, fun a b c => ?_⟩
    · rw [if_pos a]
    · rw [if_neg a, if_neg (by simp [Config.trailPlaces]; exact b)]
    · rw [if_neg a, if_pos (by simpa [Config.trailPlaces] using b), (Lane.enter_eq _ _).1 c]
    · rw [if_neg a, if_pos (by simpa [Config.trailPlaces] using b), (Lane.enter_eq _ _).2 c]

/-! ## The writer at work -/

theorem State.writerWorks_of_fillsPages {s : State} (h : s.fillsPages) : s.writerWorks = true := by
  rcases h with h | h | h | ⟨h1, h2, h3⟩ <;> simp [State.writerWorks, State.initialFetch, *]

/-- What a writer's answer leaves of Engine Control goes on, where the session goes on. -/
theorem State.afterAnswer_of_fillsPages {s t : State} (h : s.fillsPages) (e : t.eng.state = s.eng.state)
    (e' : t.eng.aborting = s.eng.aborting) : t.afterAnswer = t := by
  rcases h with h | h | h | ⟨h1, h2, h3⟩ <;> simp [State.afterAnswer, *]

/-- An IDLE writer decides no close. -/
theorem Writer.decideClose_of_idle {w : Writer} (now : Tick) (h : w.state = .idle) : w.decideClose now = w := by
  unfold Writer.decideClose
  rw [h]
  split <;> simp_all

/-- An IDLE writer settles nothing while records wait, or before the end marker is taken. -/
theorem State.writerSettle_of_idle {s : State} (h : s.wr.state = .idle)
    (he : s.wr.endTaken = false ∨ s.wr.queue ≠ []) (hf : s.wr.flushing = false) : s.writerSettle = s := by
  unfold State.writerSettle
  simp only [Writer.decideClose_of_idle s.now h]
  rw [if_neg]
  rintro ⟨_, _, hq, h'⟩
  rcases he with he | he
  · rcases h' with h' | ⟨h', _⟩ <;> simp_all
  · exact he hq

/-- An IDLE writer that has taken the end marker and holds nothing is DONE (R140). -/
theorem State.writerSettle_of_ended {s : State} (h : s.wr.state = .idle) (ht : s.wr.task = .none)
    (he : s.wr.endTaken = true) (hq : s.wr.queue = []) : s.writerSettle = s.writerComplete := by
  unfold State.writerSettle
  simp only [Writer.decideClose_of_idle s.now h]
  rw [if_pos ⟨h, ht, hq, Or.inl he⟩]

/-! ## Reread requests (R33, R34, R133) -/

theorem State.laneAsked_lanesReread (s : State) (i : LaneId) : s.laneAsked i (s.lanesReread.lane i) := by
  have e : s.lanesReread.lane i = (s.lane i).askReread (s.headerOutstanding i) := by
    simp [State.lanesReread, State.lane]
  have hb : s.headerOutstanding i = true ↔
      (s.port.loader.isOutstanding = true ∧ ∃ a, s.loader.access = some a ∧ a.lane = i ∧ a.kind = .header) := by
    unfold State.headerOutstanding
    cases s.loader.access <;> simp [and_comm, and_assoc]
  rw [e]
  unfold State.laneAsked rereadAsked Lane.askReread
  simp only [← hb]
  generalize s.headerOutstanding i = b
  generalize s.lane i = l
  cases l with
  | mk st =>
    rename_i r
    by_cases hs : st = .waiting
    · cases r <;> cases b <;> simp [hs]
    · simp [hs]

theorem State.writerAsked_writerReread {s : State} (h : s.wr.state = .starved) (hl : s.lastRereadMade = false) :
    s.writerAsked s.writerReread.wr := by
  have e : s.writerReread.wr = s.wr.askReread s.rereadBegun := by simp [State.writerReread, h, hl]
  have hb : s.rereadBegun = true ↔ ¬ (s.wr.task = .table [] ∧ s.port.writer.isOutstanding = false) := by
    unfold State.rereadBegun
    cases ht : s.wr.task with
    | table es => cases es <;> simp
    | _ => simp
  rw [e]
  unfold State.writerAsked rereadAsked Writer.askReread
  simp only [← hb]
  generalize s.rereadBegun = b
  generalize s.wr = w
  rcases w with ⟨_, _, _, _, _, r, _⟩
  cases r <;> cases b <;> simp

/-! ## An abort of the initial fetch (R153) -/

/-- It waits for the Loader's transaction, then the lanes are OFF, and for the writer's, then it ends. -/
theorem State.prepareAbortEnd_of_checked {s : State} (h : s.eng.checked = true) :
    let off : State := { s with loader := { s.loader with lanes := Vector.replicate 4 Lane.off, access := none } }
    (s.port.loader.isOutstanding = true → s.prepareAbortEnd = s) ∧
      (s.port.loader.isOutstanding = false → s.port.writer.isOutstanding = true → s.prepareAbortEnd = off) ∧
      (s.port.loader.isOutstanding = false → s.port.writer.isOutstanding = false →
        s.prepareAbortEnd = off.failPrepare .aborted) := by
  refine ⟨?_, ?_, ?_⟩
  · intro h1
    simp only [State.prepareAbortEnd, h, h1, if_true, Bool.true_or]
  · intro h1 h2
    simp only [State.prepareAbortEnd, h, h1, if_true]
    simp [h1, h2]
  · intro h1 h2
    simp only [State.prepareAbortEnd, h, h1, if_true]
    simp [h1, h2]

end Sys2Proof.Machine
end

