-- ==== Sys2Proof/Laws/Tick.lean ====
section
/-! SUPPORT. Laws/Tick.lean: what the events of an ending tick leave of Engine Control and of the timebase, once. -/

namespace Sys2Proof.Machine

/-! ## Engine Control after Calendar work: as it was, or a drain begun from RUNNING -/

theorem State.dispatch_eng (s : State) (e : Entry) (l : Option Half) :
    (s.dispatch e l).eng = s.eng ∨ (s.dispatch e l).eng.state = .draining := by
  simp only [State.dispatch]
  (repeat' split) <;> try exact Or.inl (by simp)
  simp only [State.dispatchEnd]
  split
  · left; simp
  · right; simp [State.beginDrain, State.cancelCues, State.stopChannels, State.mapChans, State.drainConverter,
      State.restartStarveCount]
    (repeat' split) <;> simp

theorem State.handleEntry_eng (s : State) (e : Entry) :
    (s.handleEntry e).eng = s.eng ∨ (s.handleEntry e).eng.state = .draining := by
  simp only [State.handleEntry]
  split
  · left; simp
  · exact State.dispatch_eng _ _ _

theorem State.takeExpiry_eng (s : State) :
    s.takeExpiry.eng = s.eng ∨ (s.eng.state = .running ∧ s.takeExpiry.eng.state = .draining) := by
  simp only [State.takeExpiry]
  split
  · next e he =>
    have hr : s.eng.state = .running := by
      simp only [State.expiredEntry] at he
      split at he
      · split at he
        · simp_all
        · simp at he
      · simp at he
    rcases State.handleEntry_eng { s with cal := s.cal.tail } e with h | h
    · left; exact h
    · right; exact ⟨hr, h⟩
  · left; rfl

theorem State.offerHead_eng (s : State) (i : LaneId) :
    (s.offerHead i).eng = s.eng ∨ (s.eng.state = .running ∧ (s.offerHead i).eng.state = .draining) := by
  simp only [State.offerHead]
  split
  · simp only [State.takeHead]
    split
    · next h =>
      rcases State.handleEntry_eng (s.setLane i { s.lane i with head := none }) (s.entryOf i _ _) with h' | h'
      · left; rw [h']; rfl
      · right; exact ⟨by simpa using h.1, h'⟩
    · left; rfl
  · left; rfl

theorem State.settleCalendar_eng (s : State) (n : Nat) :
    (s.settleCalendar n).eng = s.eng ∨ (s.eng.state = .running ∧ (s.settleCalendar n).eng.state = .draining) := by
  induction n generalizing s with
  | zero => left; rfl
  | succ k ih =>
    simp only [State.settleCalendar]
    split
    · rcases ih s.takeExpiry with h | ⟨h1, h2⟩
      · rw [h]; exact State.takeExpiry_eng s
      · rcases State.takeExpiry_eng s with h | ⟨h, h'⟩
        · right; exact ⟨by rw [← h]; exact h1, h2⟩
        · rw [h'] at h1; cases h1
    · split
      · next i _ =>
        rcases ih (s.offerHead i) with h | ⟨h1, h2⟩
        · rw [h]; exact State.offerHead_eng s i
        · rcases State.offerHead_eng s i with h | ⟨h, h'⟩
          · right; exact ⟨by rw [← h]; exact h1, h2⟩
          · rw [h'] at h1; cases h1
      · left; rfl

theorem State.takeConversionEnd_state (s : State) :
    s.takeConversionEnd.eng.state = s.eng.state ∧ s.takeConversionEnd.eng.checked = s.eng.checked := by
  simp only [State.takeConversionEnd]
  (repeat' split) <;> simp

theorem State.takeEngineReset_of_not_due {s : State}
    (h : s.eng.resetPending = false ∨ ∃ r, (s.port.request r).isOutstanding = true) : s.takeEngineReset = s := by
  have : s.engineResetDue = false := by
    rcases h with h | ⟨r, h⟩
    · simp [State.engineResetDue, h]
    · cases r <;> simp_all [State.engineResetDue, Port.quietBus, Port.request]
  simp [State.takeEngineReset, this]

/-- A scan event restarts the scan count, and leaves the timebase otherwise. -/
theorem State.takeScan_tb (s : State) :
    s.takeScan.tb = { s.tb with scanCount := if s.scanDue then 0 else s.tb.scanCount } := by
  simp only [State.takeScan]
  split <;> simp

/-- What the events of the ending tick do to the timebase and to the engine state, below the timebase's last value. -/
theorem State.finishTick_spec (s : State)
    (h : s.eng.resetPending = false ∨ ∃ r, (s.port.request r).isOutstanding = true)
    (hc : s.tb.runs = true → s.tb.count.toNat + 1 < 2 ^ 48) :
    s.finishTick.tb.runs = s.tb.runs ∧ s.finishTick.tb.count = s.tb.count ∧
    (s.finishTick.eng.state = s.eng.state ∧ s.finishTick.eng.checked = s.eng.checked ∨
      s.eng.state = .running ∧ s.finishTick.eng.state = .draining) ∧
    s.finishTick.tb.scanCount =
      if s.scans ∧ s.params.scanPeriod.toNat ≤ s.tb.scanCount then 0 else s.tb.scanCount := by
  have key : ∃ u : State, s.finishTick = u.takeScan.takeDeadlineExpiry.takeTimebaseEnd ∧ u.tb = s.tb ∧
      u.params = s.params ∧ (u.eng.state = s.eng.state ∧ u.eng.checked = s.eng.checked ∨
        s.eng.state = .running ∧ u.eng.state = .draining) := by
    refine ⟨_, rfl, by simp [State.takeEngineReset_of_not_due h], by simp [State.takeEngineReset_of_not_due h], ?_⟩
    simp only [State.takeEngineReset_of_not_due h, State.settleLinks_frame, State.settleArrivals_frame, State.takeConversionEnd_state,
      State.takeReady_frame]
    rcases State.settleCalendar_eng s (s.cal.length + 12) with h | h
    · left; rw [h]; exact ⟨rfl, rfl⟩
    · right; exact h
  obtain ⟨u, hu, ht, hp, he⟩ := key
  have hn : u.takeScan.takeDeadlineExpiry.timebaseEndDue = false := by
    simp only [State.timebaseEndDue, State.takeDeadlineExpiry_frame, State.takeScan_tb, ht]
    by_cases hr : s.tb.runs = true
    · have : s.tb.count ≠ 281474976710655#48 := by
        intro hq
        have := hc hr; rw [hq] at this; simp at this
      simp [this]
    · simp [hr]
  have hf : s.finishTick = u.takeScan.takeDeadlineExpiry := by rw [hu]; simp [State.takeTimebaseEnd, hn]
  rw [hf]
  refine ⟨by simp [State.takeScan_tb, ht], by simp [State.takeScan_tb, ht], by simpa using he, ?_⟩
  have hs : u.scans = s.scans := by
    simp only [State.scans]
    rcases he with ⟨h1, _⟩ | ⟨h1, h2⟩
    · rw [h1]
    · rw [h1, h2]
  simp [State.takeScan_tb, State.scanDue, hs, hp, ht]

end Sys2Proof.Machine
end

