-- ==== Sys2Proof/Tests/Slice0.lean ====
section
/-! SUPPORT. Tests/Slice0.lean: the checks of WellFormed refusing what they must, one step of many commands on small
states, and for every statement with hypotheses the states and operands that meet them (`witness_…`). -/

namespace Sys2Proof.Tests

open Sys2Proof.Machine

set_option maxRecDepth 100000
set_option Elab.async false

/-! ## WellFormed -/

theorem test_unknown_command_refuses_assigned_code : (Instr.unknownCommand 6).wellFormed = false := by decide

theorem test_unknown_command_accepts_unassigned_codes :
    (Instr.unknownCommand 0).wellFormed = true ∧ (Instr.unknownCommand 7).wellFormed = true := by decide

theorem test_ignored_write_refuses_a_word_at_BASE : (Instr.ignoredRegisterWrite 0x00 4 9).wellFormed = false := by decide

theorem test_ignored_write_refuses_no_bytes : (Instr.ignoredRegisterWrite 0x04 0 9).wellFormed = false := by decide

theorem test_ignored_write_accepts_narrow_and_read_only :
    (Instr.ignoredRegisterWrite 0x04 3 9).wellFormed = true ∧ (Instr.ignoredRegisterWrite 0x1C 4 9).wellFormed = true :=
  by decide

theorem test_fire_link_refuses_the_own_channel : (Instr.fireLinkDelivery 4 4).wellFormed = false := by decide

theorem test_no_word_spells_a_command : decodeTableWord 0 0 = none := by decide

/-! ## What an access of the register window is -/

theorem test_control_codes :
    [1, 2, 3, 4, 5, 6].map controlCommand = [.prepare, .startCommand, .stopCommand, .abort, .nudge, .reset] ∧
      controlCommand 0 = .unknownCommand 0 ∧ controlCommand 7 = .unknownCommand 7 ∧
      controlCommand 0x101 = .unknownCommand 0x101 := by decide

theorem test_register_writes :
    registerWrite 0x00 4 9 = .baseWrite 9 ∧ registerWrite 0x04 4 5 = .nudge ∧ registerWrite 0x0C 4 9 = .alertWrite 9 ∧
      registerWrite 0x10 4 9 = .alertEnableWrite 9 ∧ registerWrite 0x04 1 5 = .ignoredRegisterWrite 0x04 1 5 ∧
      registerWrite 0x08 4 9 = .ignoredRegisterWrite 0x08 4 9 := by decide

/-- Four bytes at an offset that is no multiple of 4 are an ignored write, and well formed. -/
theorem test_a_word_across_registers_is_ignored :
    registerWrite 0x05 4 5 = .ignoredRegisterWrite 0x05 4 5 ∧ (registerWrite 0x05 4 5).wellFormed = true ∧
      (registerWrite 0x0E 4 5).wellFormed = true := by decide

theorem test_register_reads :
    registerRead 0x14 = some .timeLoRead ∧ registerRead 0x16 = some .timeLoRead ∧ registerRead 0x18 = none := by decide

/-- A word at BASE, CONTROL, ALERT or ALERT_ENABLE is never an ignored write, and every other write is. -/
theorem test_register_writes_are_well_formed :
    ∀ (offset : Fin 8) (bytes : Fin 5), bytes ≠ 0 →
      (registerWrite (BitVec.ofNat 5 (4 * offset.val)) bytes 7).wellFormed = true := by decide

/-! ## Small states -/

/-- The state a command leaves; the state before where it answers no next state. -/
def after (c : Instr) (s : State) : State :=
  match exec c s with
  | .next t => t
  | .fault _ => s
  | .refused _ => s

/-- The state after reset, with the quiet interval over. -/
def base : State := { State.reset with port := .reset none }

/-- An engine state at tick 100, one tick a microsecond, with a window in force. -/
def inState (st : EngineState) : State :=
  { base with
    eng := { base.eng with state := st }
    params := { horizon := 1000, scanPeriod := 5, deadline := 20, startSource := .lineRise }
    tb := { count := 100, runs := st == .running || st == .draining, divider := 100, scanCount := 5 }
    port := { base.port with window := some { base := 0x100000, limit := 0x200000 } } }

/-- An entry of lane 1 due at tick 100. -/
def entry (a : Action) : Entry :=
  { cue := { due := 100, action := a, tag := 5, late := .skip, report := false, payloadPresent := false }
    lane := 1, seq := 2, trailRef := 0x100000, lateMark := false }

/-- RUNNING with that entry due now. -/
def due (a : Action) : State := { inState .running with cal := [entry a] }

/-- The same entry, five ticks late. -/
def lateEntry (a : Action) : Entry := { entry a with cue := { (entry a).cue with due := 95 } }

def settings (sh : Shape) : Settings :=
  { shape := sh, clock := .div 0, period := 10, action := 4, wrapSource := .period, inputEdge := .both,
    matchAction := .toggle, initialLevel := .low, polarity := .activeHigh, restLevel := .low, retrigger := .extend,
    rearm := true, linkAction := .fire 3, linkWrap := .none }

/-- A channel in a state, counting up to an action mark of 4. -/
def channel (m : ChanMode) (sh : Shape) : Channel :=
  { Channel.reset with mode := m, settings := some (settings sh), arrived := false }

def withChan (s : State) (c : Channel) : State := s.setChan 2 c

/-- The settings record of a MATCH channel with period 10, no action mark, divider 0. -/
def matchRecord : BitVec 160 := 10 <<< 16

def aRecord : Rec := .note 7 none 3

def aPage : Page := { slot := 0, address := 0x110000, size := 512, nextFree := 32, records := 0, firstTick := none }

def aRequest : Request := { addr := 0x110000, len := 16, write := true, data := [] }

def withWriter (s : State) (w : Writer) : State := { s with wr := w }

/-- A writer with a page open and this queue. -/
def openWriter (q : List Item) : Writer := { Writer.reset with state := .opened, page := some aPage, queue := q }

/-- The writer's, the Loader's, the engine's transaction with issue number 4 is outstanding since reading 0. -/
def writerOut (s : State) : State := { s with port := { s.port with writer := .outstanding aRequest 4 0 } }

def loaderOut (s : State) (k : LaneAccessKind) (l : Lane) : State :=
  { s with
    port := { s.port with loader := .outstanding aRequest 4 0 }
    loader := { s.loader with lanes := s.loader.lanes.set 1 l, access := some { lane := 1, kind := k, segment := 0x100000 } } }

def engineOut (s : State) (t : EngineTask) : State :=
  { s with
    eng := { s.eng with task := t }
    port := { s.port with engine := .outstanding aRequest 4 0 } }

def aTrail : TrailEntry := { address := 0x100000, fetched := 1, retired := 0, finish := none }

/-- A lane in a state with one segment. -/
def lane (st : LaneState) : Lane := { Lane.off with state := st, current := 0x100000, knownFill := 2, trail := [aTrail] }

def aCue (due : Tick) (late : LatePolicy) (a : Action) : Cue :=
  { due, action := a, tag := 5, late, report := true, payloadPresent := false }

def headOf (c : Cue) : Head := { seq := 3, trailRef := 0x100000, body := .accepted c }

def withLane (s : State) (l : Lane) : State := s.setLane 1 l

def aConvRequest : ConvRequest := { input := 2, source := .cue 1 2, tag := 5 }

def aConversion : Conversion := { request := aConvRequest, start := 90, ref := .supply, index := 0 }

/-- A Converter in a power state. -/
def conv (p : PowerState) : Converter := { Converter.reset 0 with power := p }

def withConv (s : State) (c : Converter) : State := { s with conv := c }

def aMarker : CloseMarker := { lane := 1, seq := 2, tag := 5, report := true, time := 100, lateness := none }

def aDelivery (l : Link) : LinkDelivery := { source := 1, kind := .action, tag := 5, link := l }

def aClosing : Closing := { cause := .full, seq := 1, time := 100, lost := 0, marker := none }

def aSlot : SlotEntry := { state := 1, address := 0x110000, size := 512 }

/-! ## One step of a command -/

theorem test_prepare_reads_the_control_block :
    (after .prepare { base with win := { base.win with base := 0x120000 } }).engineWants =
      some { addr := 0x120000, len := 64, write := false, data := [] } := by decide

theorem test_prepare_of_a_misaligned_base_fails :
    (after .prepare { base with win := { base.win with base := 0x120100 } }).eng.prepError = .badWindow ∧
      (after .prepare { base with win := { base.win with base := 0x120100 } }).win.alert = 0x80 := by decide

theorem test_session_number_skips_zero :
    (after .prepare { base with eng := { base.eng with session := 65535 } }).eng.session = 1 := by decide

theorem test_state_word_of_running : (inState .running).stateWord = 3 := by decide

theorem test_start_command_runs :
    (after .startCommand (inState .armed)).eng.state = .running ∧ (after .startCommand (inState .armed)).tb.runs = true := by
  decide

theorem test_stop_command_drains : (after .stopCommand (inState .running)).eng.endCause = .stopCommand := by decide

theorem test_abort_ends : (after .abort (inState .draining)).eng.state = .ended := by decide

theorem test_alert_write_clears :
    (after (.alertWrite 0x05) { base with win := { base.win with alert := 0x0F } }).win.alert = 0x0A := by decide

theorem test_time_lo_read :
    (after .timeLoRead { base with tb := { base.tb with count := 0x123456789ABC } }).win.busRead = 0x56789ABC ∧
      (after .timeLoRead { base with tb := { base.tb with count := 0x123456789ABC } }).win.timeHi = 0x1234 := by decide

theorem test_narrow_time_lo_read :
    let t := after .timeLoRead { base with tb := { base.tb with count := 0x123456789ABC } }
    t.timeLoReturned 1 2 = 0x789A ∧ t.timeLoReturned 0 4 = 0x56789ABC ∧ t.timeLoReturned 3 1 = 0x56 := by decide

theorem test_tick_counts : (after .timebaseTick (inState .running)).tb.count = 101 := by decide

theorem test_timebase_end_faults :
    (after .timebaseEnd { inState .running with tb := { (inState .running).tb with count := BitVec.allOnes 48 } }).eng.state =
      .faulted := by decide

theorem test_set_makes_stopped :
    ((after (.set 2) (due (.channel 2 (.set matchRecord)))).chan 2).mode = .stopped := by decide

theorem test_start_of_a_one_shot_arms :
    ((after (.start 2) (withChan (due (.channel 2 .start)) (channel .stopped .oneShot))).chan 2).mode = .armed := by decide

/-- A START that ends a pulse sets the counter to 0 (assumption log 36). -/
theorem test_start_in_a_pulse_restarts :
    let t := (after (.start 2) (withChan (due (.channel 2 .start)) { channel .pulsing .oneShot with counter := 3 })).chan 2
    t.mode = .armed ∧ t.counter = 0 ∧ t.output = .low := by decide

theorem test_fire_starts_the_pulse :
    ((after (.fire 2) (withChan (due (.channel 2 .fire)) (channel .armed .oneShot))).chan 2).output = .high := by decide

theorem test_fire_of_a_match_channel_is_refused :
    (after (.fire 2) (withChan (due (.channel 2 .fire)) (channel .running .matching))).win.alert = 0x08 := by decide

theorem test_arrival_counts_to_the_action_mark :
    ((after (.tickArrival 2 .low) (withChan (inState .running)
      { channel .running .matching with counter := 3 })).chan 2).output = .high := by decide

/-- The edge of the tick of a RESUME is not captured, whichever of the two comes first; that of a later tick is. -/
theorem test_a_resume_keeps_the_edge_of_its_tick :
    (after (.tickArrival 2 .high) (after (.resume 2) (withChan (due (.channel 2 .resume))
      { channel .paused .capture with pausedFrom := some .running }))).wr.queue = [] ∧
    (after (.resume 2) (after (.tickArrival 2 .high) (withChan (due (.channel 2 .resume))
      { channel .paused .capture with pausedFrom := some .running }))).wr.queue = [] ∧
    (after (.tickArrival 2 .high) (withChan (inState .running)
      { channel .running .capture with restart := some 99 })).wr.queue.length = 1 := by decide

/-- With one free entry the head due first is taken, and the later one waits although its lane is offered first. -/
theorem test_the_head_due_first_takes_the_free_entry :
    let heads : State := withLane ((inState .running).setLane 0
      { lane .active with head := some (headOf (aCue 120 .skip (.engine .endCue))) })
      { lane .active with head := some (headOf (aCue 110 .skip (.engine .endCue))) }
    let full : State := { heads with cal := List.replicate 47 { entry (.engine .endCue) with cue := aCue 200 .skip (.engine .endCue) } }
    (after (.laneHeadOffer 0) full).cal.length = 47 ∧ (after (.laneHeadOffer 1) full).cal.length = 48 ∧
      (after (.laneHeadOffer 0) heads).cal.length = 1 := by decide

/-- At the start time 2^48 - 1 the entries wait: EXPIRY may come before TIMEBASE_END, or after it. -/
theorem test_a_start_at_the_last_tick :
    let armed : State := { inState .armed with tb := { (inState .armed).tb with count := BitVec.allOnes 48 }, cal := [entry (.engine .closePage)] }
    (after .startCommand armed).cal.length = 1 ∧
      (after .timebaseEnd (after .startCommand armed)).cal = [] ∧ (after .expiry (after .startCommand armed)).cal = [] := by
  decide

/-- After such a start a late head of the lane takes its place behind the lane's earlier entry, and EXPIRY handles them in
lane sequence order; with no earlier entry it is handled at once. -/
theorem test_a_late_head_keeps_the_lane_order :
    let last : State := { inState .running with tb := { (inState .running).tb with count := BitVec.allOnes 48 } }
    let late : State := withLane last { lane .active with head := some (headOf (aCue 200 .skip (.engine .closePage))) }
    let both : State := { late with cal := [entry (.engine .closePage)] }
    (after (.laneHeadOffer 1) both).cal.map (·.seq) = [2, 3] ∧ (after (.laneHeadOffer 1) both).wr.queue = [] ∧
      (after .expiry (after (.laneHeadOffer 1) both)).cal.map (·.seq) = [3] ∧
      (after (.laneHeadOffer 1) late).cal = [] ∧ (after (.laneHeadOffer 1) late).wr.queue.length = 1 := by decide

/-- The drain limit reached while an engine reset is pending: the writer is DONE, and Engine Control takes nothing. -/
theorem test_the_drain_limit_while_a_reset_is_pending :
    let s : State := after .reset (withWriter (inState .draining)
      { Writer.reset with state := .starved, starveCount := 16, queue := [.record aRecord] })
    let t := after .drainLimitExpiry s
    t.wr.state = .done ∧ t.wr.lost = 1 ∧ t.eng.endCause = s.eng.endCause ∧ t.eng.pathComplete = s.eng.pathComplete := by
  decide

/-- The drain's end marker waits for a CONVERT link under way, whose DROP stands before it. -/
theorem test_the_end_marker_waits_for_a_link :
    let quiet : State := { inState .draining with
      eng := { (inState .draining).eng with converterIdle := true, loaderQuiet := true }
      conv := { conv .off with closing := some .sessionEnd }
      links := [aDelivery (.convert 9)] }
    (after .endMarkerPlace quiet).wr.queue = [] ∧
      (after .endMarkerPlace (after (.convertLinkRequest 1) quiet)).wr.queue =
        [.record (.drop 9 (.link 1 .action) .sessionEnd 5 100), .endMarker] := by decide

/-- The summary of an abort waits for a CONVERT link under way, whose request is counted lost in it; the tick takes the
request as its row does. -/
theorem test_the_summary_waits_for_a_link :
    let ended : State := { inState .ended with
      eng := { (inState .ended).eng with converterIdle := true, loaderQuiet := true, pathComplete := true }
      conv := { conv .off with closing := some .fault }
      wr := { Writer.reset with state := .done }
      links := [aDelivery (.convert 9)] }
    (after .endSummaryWrite ended).eng.task = .none ∧
      (after .endSummaryWrite (after (.convertLinkRequest 1) ended)).eng.task.isSummary = true ∧
      (after (.convertLinkRequest 1) ended).wr.lost = 1 ∧
      (after .timebaseTick ended).links = [] ∧ (after .timebaseTick ended).wr.lost = 1 := by decide

/-- A record that does not fit the open page closes it with FULL as soon as it is offered. -/
theorem test_an_offer_closes_a_full_page :
    let s : State := withWriter (inState .running)
      { openWriter [] with page := some { aPage with nextFree := 500, records := 3, firstTick := some 80 } }
    (after (.recordOffer aRecord) s).wr.task = .header { cause := .full, seq := 1, time := 100, lost := 0, marker := none } ∧
      (after (.recordOffer aRecord) s).wr.queue = [.record aRecord] := by decide

/-- An END cue due at the start time: the START command begins the drain in the same step (R21, R12). -/
theorem test_a_start_with_an_end_cue_due :
    let t := after .startCommand { inState .armed with cal := [entry (.engine .endCue)] }
    t.eng.state = .draining ∧ t.eng.endCause = .endCue ∧ t.eng.result = .accepted ∧ t.tb.runs = true := by decide

/-- An examination without a good slot sets STARVE in a flush too. -/
theorem test_starve_in_a_flush :
    let w : Writer := { Writer.reset with queue := [.record aRecord], task := .table (List.replicate 12 { aSlot with state := 0 }), flushing := true }
    let t := after (.response .writer 4 true 0) (writerOut (withWriter (inState .faulted) w))
    t.win.alert = 0x02 ∧ t.wr.state = .done ∧ t.eng.pathComplete = true := by decide

/-- An ABORT in the read phase with the read still waiting: OFF at once, and the answer of that read is discarded. -/
theorem test_abort_with_a_waiting_read :
    let reading : State := after (.requestPresent .engine) (after .prepare { base with win := { base.win with base := 0x120000 } })
    let off : State := after .abort reading
    let again : State := after .prepare off
    let answered : State := after (.response .engine 0 true 0) (after (.grant 9) again)
    off.eng.state = .off ∧ off.eng.prepError = .aborted ∧ again.eng.state = .preparing ∧
      answered.eng.task = .readFirst ∧ answered.eng.staleRead = false ∧ answered.port.engine = .none := by decide

theorem test_power_on_lasts_thirty_ticks :
    (after .powerOn (due (.converter .powerOn))).conv.endTick = some 130 := by decide

theorem test_convert_starts_when_ready :
    (after .convert (withConv (due (.converter (.convert 4))) (conv .ready))).conv.power = .converting := by decide

theorem test_end_cue_drains : (after .endCue (due (.engine .endCue))).eng.endCause = .endCue := by decide

theorem test_a_late_skip_cue_is_reported :
    (after .expiry { inState .running with cal := [lateEntry (.engine .endCue)] }).wr.queue =
      [.record (.cueReport { lane := 1, seq := 2, code := 0x8A, outcome := .skippedLate, time := 100, detail := 5, tag := 5 })] := by
  decide

theorem test_record_bytes : recBytes (.note 0x0102 none 0x0A0B0C0D) =
    [0x07, 0x10, 0x02, 0x01, 0, 0, 0, 0, 0, 0, 0, 0, 0x0D, 0x0C, 0x0B, 0x0A] := by decide

theorem test_a_slot_check_at_its_bounds :
    slotCheck (inState .running).port.window { aSlot with address := 0x1FFE00 } = none ∧
      slotCheck (inState .running).port.window { aSlot with address := 0x1FFF00 } = some .outsideWindow ∧
      slotCheck (inState .running).port.window { aSlot with size := 256 } = some .badSize := by decide

/-- A control block at 120000H: format 1, divider, horizon 1, scan period, source, window 100000H to 200000H. -/
def controlBlock (divider scan source laneZero : Nat) : BitVec 1024 :=
  let field (off v : Nat) : BitVec 1024 := BitVec.ofNat 1024 v <<< (8 * off)
  field 0x00 1 ||| field 0x02 divider ||| field 0x04 source ||| field 0x10 1 ||| field 0x14 scan |||
    field 0x20 0x100000 ||| field 0x24 0x200000 ||| field 0x40 laneZero ||| field 0x44 0x1FF800

def prepareError (cb : BitVec 1024) : Option PrepareError :=
  match prepareChecks 0x120000 cb with
  | .error e => some e
  | .ok _ => none

theorem test_prepare_checks_at_their_bounds :
    prepareError (controlBlock 1024 16777215 2 1) = none ∧
      prepareError (controlBlock 1025 0 3 2) = some .badDivider ∧
      prepareError (controlBlock 1 0 3 2) = some .badScan ∧
      prepareError (controlBlock 1 16777216 3 2) = some .badScan ∧
      prepareError (controlBlock 1 1 3 2) = some .badStartSource ∧
      prepareError (controlBlock 1 1 0 2) = some .badLane ∧
      prepareError 0 = some .badFormat ∧ prepareError 1 = some .badWindow := by decide

/-- What a control block that passes gives: the largest divider, the start source, an enabled lane and its segment. -/
theorem witness_PrepareChecksInOrder :
    (match prepareChecks 0x120000 (controlBlock 1024 7 2 1) with
     | .error _ => false
     | .ok su => su.divider == 1024 && su.params.scanPeriod == 7 && su.params.startSource == .lineFall &&
         su.lanes[0] == (true, 0x1FF800) && !(su.lanes[3]).1) = true := by decide

/-! ## Witnesses: states and operands that meet the hypotheses of the statements -/

theorem base_free : base.free := rfl

theorem inState_free (st : EngineState) : (inState st).free := rfl

theorem due_dueNow (a : Action) : (due a).dueNow (entry a) [] := ⟨rfl, rfl, rfl, rfl⟩

theorem due_chan_dueNow (a : Action) (c : Channel) : (withChan (due a) c).dueNow (entry a) [] := ⟨rfl, rfl, rfl, rfl⟩

theorem due_conv_dueNow (a : Action) (c : Converter) : (withConv (due a) c).dueNow (entry a) [] := ⟨rfl, rfl, rfl, rfl⟩

theorem due_writer_dueNow (a : Action) (w : Writer) : (withWriter (due a) w).dueNow (entry a) [] := ⟨rfl, rfl, rfl, rfl⟩

theorem withChan_mode (s : State) (m : ChanMode) (sh : Shape) :
    ((withChan s (channel m sh)).chan 2).mode = m ∧ ((withChan s (channel m sh)).chan 2).settings = some (settings sh) := by
  rw [withChan, State.chan_setChan_same]
  exact ⟨rfl, rfl⟩

theorem witness_StepRunsFrontCommand :
    ({ base with pending := [.nudge] } : State).pending = .nudge :: [] ∧ base.pending = [] := ⟨rfl, rfl⟩

theorem witness_DeviceResetTakesEffect : (after .deviceReset base).pins.resetHeld = true := rfl

theorem witness_QuietInterval :
    (after .deviceReset base).pins.resetHeld = true ∧ State.reset.free ∧ State.reset.port.quiet = some 0 ∧
      0 + 4000 ≤ max State.reset.pins.refClock 4000 ∧ max State.reset.pins.refClock 3999 < 0 + 4000 :=
  ⟨rfl, rfl, rfl, by decide, by decide⟩

theorem witness_AlertBitsStay :
    ∃ t, exec .nudge { base with win := { base.win with alert := 0x81 } } = .next t ∧
      ({ base with win := { base.win with alert := 0x81 } } : State).win.alert.getLsbD 7 = true := ⟨_, rfl, by decide⟩

theorem witness_BaseAndIgnoredWrites :
    base.accepts .prepare ∧ ¬ (inState .armed).accepts .prepare ∧ (∃ t, exec .nudge base = .next t) := by
  refine ⟨⟨rfl, Or.inl rfl⟩, ?_, _, rfl⟩
  simp [State.accepts, inState]

/-- A narrow write at CONTROL, and a word at an offset that is no register to be written. -/
theorem witness_BaseAndIgnoredWrites_accesses :
    ((3 : Fin 5) ≠ 4) ∧ ((0x14 : BitVec 5) ≠ 0x00 ∧ (0x14 : BitVec 5) ≠ 0x04 ∧ (0x14 : BitVec 5) ≠ 0x0C ∧ (0x14 : BitVec 5) ≠ 0x10) ∧
      (0x14 ≤ (0x17 : BitVec 5).toNat ∧ (0x17 : BitVec 5).toNat ≤ 0x17) ∧ (0x13 : BitVec 5).toNat < 0x14 ∧
      0x17 < (0x18 : BitVec 5).toNat ∧ 6 < (7 : Word).toNat := by decide

theorem witness_TimeLoReadLatches :
    (∃ t, exec .deviceReset base = .next t) ∧ (∃ t, exec .engineReset base = .next t) ∧
      (∃ t, exec .timebaseTick base = .next t) ∧ base.eng.resetPending = false := ⟨⟨_, rfl⟩, ⟨_, rfl⟩, ⟨_, rfl⟩, rfl⟩

/-- STATE with every item at a value of its own, a read of one byte of it and of its upper half; the bounds of a narrow
read. -/
theorem witness_TimeLoReadLatches_registers :
    let s : State := { inState .faulted with
      eng := { (inState .faulted).eng with windDown := true, result := .accepted, secondary := true, prepError := .busError,
                                           endCause := .aborted, faultCode := some .timebaseEnd } }
    s.readRegister 0x08 4 = 0x2585E ∧ s.readRegister 0x09 1 = 0x58 ∧ s.readRegister 0x0A 2 = 2 ∧
      (withWriter s { Writer.reset with state := .starved }).readRegister 0x08 4 = 0x258DE ∧
      (7 < 8 ∧ 0 < 1 ∧ 3 + 1 ≤ 4) ∧ (0 < 8 ∧ 0 < 4 ∧ 0 + 4 ≤ 4) := by decide

theorem witness_CommandAcceptance :
    (inState .armed).accepts .startCommand ∧ ¬ (inState .running).accepts .startCommand ∧ (6 : Nat) < (7 : Word).toNat ∧
      (after .reset base).eng.resetPending = true ∧ (∃ t, exec .timebaseTick base = .next t) := by
  refine ⟨⟨rfl, rfl⟩, ?_, by decide, by decide, _, rfl⟩
  simp [State.accepts, inState]

/-- The last session number, and the one before it. -/
theorem witness_SessionNumber :
    ({ base with eng := { base.eng with session := 65535 } } : State).accepts .prepare ∧ base.eng.session.toNat ≠ 65535 ∧
      base.accepts .prepare ∧ (withWriter base { openWriter [] with task := .header aClosing }).wr.page = some aPage :=
  ⟨⟨rfl, Or.inl rfl⟩, by decide, ⟨rfl, Or.inl rfl⟩, rfl⟩

theorem witness_PrepareBegins :
    base.accepts .prepare ∧ base.win.base.toNat % 512 = 0 ∧
      ({ base with win := { base.win with base := 0x1FF } } : State).win.base.toNat % 512 ≠ 0 :=
  ⟨⟨rfl, Or.inl rfl⟩, by decide, by decide⟩

/-- With an entry due at the start, with none, and at the last start time. -/
theorem witness_SessionStarts :
    (inState .armed).accepts .startCommand ∧ (∀ e ∈ (inState .armed).cal, (inState .armed).now.toNat < e.cue.due.toNat) ∧
      ({ inState .armed with cal := [entry (.engine .endCue)] } : State).calendarInOrder ∧
      State.endsNow { inState .armed with cal := [entry (.engine .endCue)] } (entry (.engine .endCue)) ∧
      State.endsNow (inState .armed) { lateEntry (.engine .endCue) with cue := { (lateEntry (.engine .endCue)).cue with late := .runLate } } ∧
      ¬ State.endsNow (inState .armed) (lateEntry (.engine .endCue)) ∧
      (entry (.engine .closePage)).cue.due.toNat ≤ (inState .armed).now.toNat ∧
      (inState .armed).params.startSource = .lineRise ∧ (inState .armed).eng.lastStart = .low ∧
      ({ inState .armed with params := { (inState .armed).params with startSource := .lineFall },
                             eng := { (inState .armed).eng with lastStart := .high } } : State).eng.lastStart = .high ∧
      ({ inState .armed with tb := { (inState .armed).tb with count := BitVec.allOnes 48 } } : State).now.toNat = 2 ^ 48 - 1 ∧
      (inState .armed).now.toNat ≠ 2 ^ 48 - 1 :=
  ⟨⟨rfl, rfl⟩, by decide, List.pairwise_singleton _ _, ⟨rfl, .inl rfl⟩, ⟨rfl, .inr (by decide)⟩,
    fun h => absurd h.2 (by decide), by decide, rfl, rfl, rfl, by decide, by decide⟩

/-- Samples that start no session: an edge not selected, one taken while a reset is pending, and one with no session
alive. -/
theorem witness_SessionStarts_samples :
    (inState .armed).params.startSource ≠ .lineFall ∧ (after .reset (inState .armed)).eng.resetPending = true ∧
      (after .reset (inState .armed)).eng.state = .armed ∧ (inState .ended).eng.state ≠ .armed ∧
      (inState .preparing).eng.checked = false := by decide

theorem witness_StopCommandDrains :
    (inState .running).accepts .stopCommand ∧ (inState .armed).accepts .stopCommand ∧
      (inState .running).conv.inFlight = none ∧ (channel .pulsing .oneShot).mode ≠ .unset ∧
      (channel .stopped .wave).mode = .stopped ∧ Channel.reset.mode = .unset ∧
      (lane .active).head = none ∧
      ({ lane .active with head := some (headOf (aCue 110 .skip (.engine .endCue))) } : Lane).acceptedHead.isSome = true :=
  ⟨⟨rfl, Or.inr rfl⟩, ⟨rfl, Or.inl rfl⟩, rfl, by decide, rfl, rfl, rfl, rfl⟩

/-- One entry and one accepted head of lane 1 are cancelled: one record with the total 2 (R48). -/
theorem test_a_drain_counts_what_it_cancels :
    (withLane (due (.engine .endCue)) { lane .active with head := some (headOf (aCue 110 .skip (.engine .endCue))) }).drainRecords
      [entry (.engine .endCue)] = [.laneEvent 1 .cancelled 0x100000 2 100] := by decide

/-- In the read phase, with no read and with one that waits for its grant, and in the initial fetch. -/
theorem witness_AbortTakesEffect :
    (inState .draining).accepts .abort ∧ (inState .draining).eng.state ≠ .preparing ∧
      (inState .preparing).accepts .abort ∧ (∀ r, (inState .preparing).port.request r = .none) ∧
      (inState .preparing).eng.checked = false ∧
      (∀ r, (({ (inState .preparing).port with engine := .waiting aRequest } : Port).request r).isOutstanding = false) ∧
      ({ inState .preparing with eng := { (inState .preparing).eng with checked := true } } : State).accepts .abort := by
  refine ⟨⟨rfl, by simp [inState]⟩, by decide, ⟨rfl, Or.inl ⟨rfl, rfl⟩⟩, ?_, rfl, ?_, ⟨rfl, Or.inl ⟨rfl, rfl⟩⟩⟩
  · intro r
    cases r <;> rfl
  · intro r
    cases r <;> rfl

/-- The writer at an ABORT: an open page with a record and without one, no page, DONE, a record write outstanding. -/
theorem witness_AbortTakesEffect_writer :
    (openWriter []).state = .opened ∧ (openWriter []).page = some aPage ∧ aPage.records = 0 ∧
      0 < ({ aPage with records := 1 } : Page).records ∧ (openWriter []).task.closing = false ∧
      (inState .running).port.writer.isOutstanding = false ∧ (openWriter []).faultRecord = none ∧
      Writer.reset.state = .idle ∧ ({ Writer.reset with state := .done } : Writer).state = .done ∧
      (writerOut (inState .running)).port.writer.isOutstanding = true ∧
      (writerOut (withWriter (inState .running) (openWriter []))).accepts .abort := by
  refine ⟨rfl, rfl, rfl, by decide, rfl, rfl, rfl, rfl, rfl, rfl, rfl, ?_⟩
  exact Or.inr (Or.inr (Or.inl rfl))

/-- A writer that has taken an abort, with a transaction outstanding. -/
def abortingWriter (w : Writer) : State := writerOut (withWriter (inState .ended) { w with aborting := true })

theorem witness_AbortTakesEffect_answers :
    (abortingWriter (openWriter [])).free ∧ (abortingWriter (openWriter [])).port.quiet = none ∧
      (abortingWriter (openWriter [])).eng.resetPending = false ∧ (abortingWriter (openWriter [])).eng.windDown = false ∧
      (abortingWriter (openWriter [])).wr.aborting = true ∧
      (abortingWriter (openWriter [])).port.writer = .outstanding aRequest 4 0 ∧
      (abortingWriter { openWriter [] with task := .record 16 }).wr.task = .record 16 ∧
      (abortingWriter { Writer.reset with task := .fill { slot := 0, entry := aSlot } }).wr.state = .idle ∧
      ({ aClosing with cause := .aborted } : Closing).cause = .aborted := by
  refine ⟨rfl, ?_⟩
  decide

/-- A close in progress at an ABORT, for each cause it can have, and its two writes at a writer that has taken the abort. -/
theorem witness_AbortTakesEffect_closing (cause : CloseCause) :
    let c : Closing := { aClosing with cause := cause }
    let s : State := writerOut (withWriter (inState .running) { openWriter [] with task := .closed c })
    s.free ∧ s.accepts .abort ∧ s.eng.state ≠ .preparing ∧ s.wr.state ≠ .done ∧ s.wr.task.closing = true ∧
      (abortingWriter { openWriter [] with task := .header c }).wr.task = .header c ∧
      (abortingWriter { openWriter [] with task := .closed c }).wr.task = .closed c ∧
      (abortingWriter { openWriter [] with task := .closed c }).free :=
  ⟨rfl, ⟨rfl, Or.inr (Or.inr (Or.inl rfl))⟩, by simp [writerOut, withWriter, inState],
    by simp [writerOut, withWriter, openWriter], rfl, rfl, rfl, rfl⟩

/-- ABORT with the control block read outstanding, and in the initial fetch with the Loader's or the writer's transaction. -/
theorem witness_AbortTakesEffect_outstanding (r : Requester) :
    let fetching : State := { inState .preparing with eng := { (inState .preparing).eng with checked := true } }
    let out : State := { fetching with port := fetching.port.setRequest r (.outstanding aRequest 4 0) }
    let aborting : State := { out with eng := { out.eng with aborting := true } }
    let reading : State := engineOut (inState .preparing) .readFirst
    reading.accepts .abort ∧ reading.eng.checked = false ∧ reading.port.engine.isOutstanding = true ∧
      reading.eng.task.isRead = true ∧ out.accepts .abort ∧ out.eng.checked = true ∧
      (out.port.request r).isOutstanding = true ∧ aborting.free ∧ aborting.port.quiet = none ∧
      aborting.eng.resetPending = false ∧ aborting.eng.state = .preparing ∧ aborting.eng.aborting = true ∧
      aborting.port.request r = .outstanding aRequest 4 0 := by
  cases r <;> exact ⟨⟨rfl, Or.inl ⟨rfl, rfl⟩⟩, rfl, rfl, rfl, ⟨rfl, Or.inl ⟨rfl, rfl⟩⟩, rfl, rfl, rfl, rfl, rfl, rfl, rfl, rfl⟩

/-- ABORT in a drain with a record write that waits, and with a summary write outstanding; and the answer of that one. -/
theorem witness_AbortTakesEffect_withdrawn :
    let w : State := withWriter (inState .draining) { openWriter [.record aRecord] with task := .record 16 }
    let s : State := engineOut { w with port := { w.port with writer := .waiting aRequest } } (.summary 1 [])
    s.accepts .abort ∧ s.eng.state ≠ .preparing ∧ s.wr.state ≠ .done ∧ s.wr.task.closing = false ∧
      s.eng.task = .summary 1 [] ∧ s.port.engine ≠ .none ∧ (after .abort s).port.writer = .none ∧
      (after .abort s).eng.task = .discard ∧ (after .abort s).port.engine = .outstanding aRequest 4 0 ∧
      (after .abort s).eng.state = .ended :=
  ⟨⟨rfl, Or.inr (Or.inr (Or.inr rfl))⟩, by decide, by decide, rfl, rfl, by decide, by decide, by decide, by decide,
    by decide⟩

theorem witness_NudgeAsksRereads :
    ((withLane (inState .running) (lane .waiting)).lane 1).state = .waiting ∧
      ((withLane (inState .running) (lane .waiting)).lane 1).reread = .absent ∧
      (withWriter (inState .draining) { Writer.reset with state := .starved, starveCount := 15 }).wr.starveCount < 16 ∧
      (withWriter (inState .armed) { Writer.reset with state := .starved }).wr.state = .starved ∧
      (after .reset base).eng.resetPending = true := by decide

/-- A request present with its read issued, and with it not; the starve count at its limit. -/
theorem witness_NudgeAsksRereads_kept :
    let l : Lane := { lane .waiting with reread := .present }
    let s : State := loaderOut (inState .running) .header l
    let w : Writer := { Writer.reset with state := .starved, reread := .present, task := .table [] }
    (s.port.loader.isOutstanding = true ∧ s.loader.access = some { lane := 1, kind := .header, segment := 0x100000 }) ∧
      ((after .nudge s).lane 1).reread = .kept ∧ ((after .nudge (withLane (inState .running) l)).lane 1).reread = .present ∧
      (after .nudge (writerOut (withWriter (inState .running) w))).wr.reread = .kept ∧
      (after .nudge (withWriter (inState .running) w)).wr = w ∧
      16 ≤ (withWriter (inState .draining) { w with starveCount := 16 }).wr.starveCount := by decide

theorem witness_ResetCommandAndEngineReset :
    (after .reset base).free ∧ (after .reset base).eng.resetPending = true ∧
      (∀ r, ((after .reset base).port.request r).isOutstanding = false) ∧
      (∃ r, ((writerOut base).port.request r).isOutstanding = true) ∧ base.eng.resetPending = false := by
  refine ⟨rfl, rfl, ?_, ⟨.writer, rfl⟩, rfl⟩
  intro r
  cases r <;> rfl

theorem witness_TickAdvancesTimebase :
    (inState .running).tb.runs = true ∧ (inState .running).eng.resetPending = false ∧
      ({ inState .running with tb := { (inState .running).tb with count := BitVec.ofNat 48 (2 ^ 48 - 2) } } : State).tb.count.toNat + 1
        < 2 ^ 48 ∧
      (inState .armed).tb.runs = false ∧ (inState .armed).eng.resetPending = false := by decide

/-- A tick at the scan period, one below it and one in ENDED, and the arrivals of a new tick, in every state of a session. -/
theorem witness_TickAdvancesTimebase_renews :
    let at4 : State := { inState .running with tb := { (inState .running).tb with scanCount := 4 } }
    let fetching : State := { inState .preparing with eng := { (inState .preparing).eng with checked := true } }
    (inState .armed).params.scanPeriod.toNat ≤ (inState .armed).tb.scanCount ∧
      ¬ at4.params.scanPeriod.toNat ≤ at4.tb.scanCount ∧
      (after .timebaseTick (inState .armed)).tb.scanCount = 1 ∧ (after .timebaseTick at4).tb.scanCount = 5 ∧
      (after .timebaseTick (inState .draining)).tb.scanCount = 1 ∧ (after .timebaseTick (inState .ended)).tb.scanCount = 5 ∧
      fetching.eng.checked = true ∧ ((after .timebaseTick fetching).chan 2).arrived = false ∧
      ((after (.tickArrival 2 .low) (withChan (inState .running) (channel .running .matching))).chan 2).arrived = true ∧
      ((after .timebaseTick (after (.tickArrival 2 .low) (withChan (inState .running) (channel .running .matching)))).chan 2).arrived = false := by decide

theorem witness_TimebaseEndFaults :
    let s : State := { inState .draining with tb := { (inState .draining).tb with count := BitVec.allOnes 48 } }
    s.tb.count.toNat = 2 ^ 48 - 1 ∧ s.tb.runs = true ∧ s.eng.resetPending = false ∧ s.wr.state = .idle ∧
      (withWriter s (openWriter [])).wr.state = .opened ∧
      (withWriter s { Writer.reset with state := .starved, task := .table [] }).wr.task ≠ .none ∧
      (withWriter s { Writer.reset with state := .starved }).wr.task = .none ∧
      (withWriter s { Writer.reset with state := .done }).wr.state = .done := by decide

/-- A flush, holding the FAULT record. -/
def flushing (w : Writer) : State :=
  withWriter (inState .faulted) { w with
    flushing := true, faultRecord := some { code := .timebaseEnd, secondary := false, address := 0, tick := 100 } }

/-- A page with exactly the room for the last record and the FAULT record, and one with four bytes less. -/
theorem witness_TimebaseEndFaults_flush :
    (flushing Writer.reset).eng.resetPending = false ∧ (flushing Writer.reset).wr.aborting = false ∧
      (flushing Writer.reset).wr.state = .idle ∧ (flushing (openWriter [])).wr.page = some aPage ∧
      (flushing (openWriter [])).port.writer = .none ∧
      (aPage.address + BitVec.ofNat 32 aPage.nextFree).toNat + 32 ≤ 0x200000 ∧
      (writerOut (flushing { openWriter [.record aRecord] with task := .record (recLength aRecord) })).wr.queue =
        [.record aRecord] ∧
      (openWriter [.record aRecord]).deadlineDue = false ∧
      ({ aPage with nextFree := 464 } : Page).nextFree + recLength aRecord + 32 ≤ aPage.size.toNat ∧
      aPage.size.toNat < ({ aPage with nextFree := 468 } : Page).nextFree + recLength aRecord + 32 ∧
      (writerOut (flushing { openWriter [] with task := .faultRecord })).port.writer = .outstanding aRequest 4 0 ∧
      ({ aClosing with cause := .fault } : Closing).cause = .fault := by decide

/-- The wrap limit 10 at counter 9, and the action mark 4 at counter 3; a pulse one short of its end. -/
theorem witness_ClockEventAdvances :
    (settings .wave).wrapLimit = some (({ channel .running .wave with counter := 9 } : Channel).counter.toNat + 1) ∧
      ({ channel .running .wave with counter := 9 } : Channel).countsInRange ∧
      ({ channel .pulsing .oneShot with counter := 3 } : Channel).countsInRange ∧
      ({ channel .pulsing .oneShot with counter := 3 } : Channel).counter.toNat + 1 = (settings .oneShot).action.toNat ∧
      (settings .wave).clock = .div 0 ∧ ¬ (channel .running .wave).phase + 1 < 2 ^ (0 : Fin 8).val ∧
      ({ settings .wave with clock := .div 7 } : Settings).clock = .div 7 ∧ 126 + 1 < 2 ^ (7 : Fin 8).val ∧
      Clock.edgeBoth.isEdge = true := by
  refine ⟨by decide, ?_, ?_, by decide, rfl, by decide, rfl, by decide, rfl⟩ <;>
    intro st h <;> simp [channel] at h <;> subst h <;> decide

/-- Every wrap limit, and marks staged or not. -/
theorem witness_ClockEventAdvances_limits :
    let marks : Marks := { period := none, action := some 7 }
    let c : Channel := { channel .running .wave with staged := some marks }
    (settings .oneShot).shape = .oneShot ∧ ({ settings .wave with wrapSource := .action } : Settings).wrapLimit = some 5 ∧
      ({ settings .matching with period := 0 } : Settings).wrapLimit = some 65536 ∧
      (settings .capture).wrapLimit = some 10 ∧ c.staged = some marks ∧ c.settings = some (settings .wave) ∧
      c.takeMarks.settings = some { settings .wave with action := 7 } ∧ (channel .running .wave).staged = none := by decide

theorem witness_ShapeActsOnOutput :
    (settings .oneShot).rearm = true ∧ ({ settings .oneShot with rearm := false } : Settings).rearm = false ∧
      (channel .running .wave).takeMarks.settings = some (settings .wave) := by decide

theorem witness_TickArrivals :
    (inState .running).sessionAlive = true ∧ ((withChan (inState .running) (channel .paused .wave)).chan 2).arrived = false ∧
      ((withChan (inState .running) { channel .running .capture with restart := some 99 }).chan 2).restart = some 99 ∧
      (99 : Tick).toNat < (inState .running).now.toNat ∧ (settings .capture).inputEdge = .both ∧
      (withWriter (inState .running) { Writer.reset with queue := List.replicate 31 (.record aRecord) }).wr.queue.length < 32 ∧
      (inState .running).wr.keeps = true := by decide

/-- The line rises: an ARMED and a PULSING ONE_SHOT channel whose input edge selects it, and a channel that counts it. -/
theorem witness_TickArrivals_edges (m : ChanMode) (sh : Shape) :
    ((withChan (inState .running) (channel m sh)).chan 2).mode = m ∧
      ((withChan (inState .running) (channel m sh)).chan 2).settings = some (settings sh) ∧
      (settings sh).inputEdge.picks (channel m sh).lastSample .high ∧ (channel m sh).resumed = false ∧
      ¬ (settings sh).inputEdge.picks (channel m sh).lastSample .low ∧
      (settings sh).retrigger = .extend ∧ ({ settings sh with retrigger := .ignore } : Settings).retrigger = .ignore ∧
      (Channel.clock (channel m sh) { settings sh with clock := .edgeRise } (edgeOf .low .high)).2 = true ∧
      (Channel.clock (channel m sh) { settings sh with clock := .edgeRise } (edgeOf .low .low)).2 = false :=
  ⟨(withChan_mode _ m sh).1, (withChan_mode _ m sh).2, Or.inl ⟨rfl, rfl, Or.inr rfl⟩, rfl, by simp [InputEdge.picks, channel, Channel.reset],
    rfl, rfl, rfl, rfl⟩

/-- A wrap and an A-match with a link, and each without one. -/
theorem witness_TickArrivals_events :
    (Channel.advance { channel .running .wave with counter := 9 } (settings .wave)).2 = some .wrap ∧
      (Channel.advance { channel .running .wave with counter := 3 } (settings .wave)).2 = some .action ∧
      (settings .wave).linkAction ≠ .none ∧ (settings .wave).linkWrap = .none ∧
      ({ settings .wave with linkWrap := .convert 4 } : Settings).linkWrap ≠ .none ∧
      (channel .running .wave).restart = none ∧ ({ channel .running .wave with restart := some 100 } : Channel).restart = some 100 ∧
      ¬ (100 : Tick).toNat < (inState .running).now.toNat := by decide

/-- A whole scan period has passed. -/
theorem witness_ScanEventRereads :
    (inState .draining).params.scanPeriod.toNat ≤ (inState .draining).tb.scanCount ∧
      ((withLane (inState .draining) (lane .waiting)).lane 1).state = .waiting ∧
      (withWriter (inState .draining) { Writer.reset with state := .starved, starveCount := 15 }).wr.starveCount < 16 := by
  decide

/-- In RUNNING, and in a drain whose starve count is at its limit. -/
theorem witness_ScanEventRereads_writer :
    (withWriter (inState .running) { Writer.reset with state := .starved, reread := .kept }).wr.reread = .kept ∧
      (after .scanEvent (withWriter (inState .draining) { Writer.reset with state := .starved, starveCount := 16 })).wr.starveCount =
        16 ∧
      (after .scanEvent (withWriter (inState .draining) { Writer.reset with state := .starved, starveCount := 15 })).wr.starveCount =
        16 := by decide

theorem witness_ExpiryAndRetirement :
    (due (.engine .endCue)).cal = [entry (.engine .endCue)] ∧
      (entry (.engine .endCue)).cue.due.toNat ≤ (due (.engine .endCue)).now.toNat ∧
      (∀ e ∈ (inState .running).cal, (inState .running).now.toNat < e.cue.due.toNat) ∧
      (lane .active).head = none ∧
      ({ lane .active with head := some { seq := 1, trailRef := 0x100000, body := .held .order } } : Lane).cuesRetired + 1 = 1 := by
  decide

/-- Late by five ticks, of every kind of target. -/
theorem witness_LateCues_runLate (a : Action) :
    let e : Entry := { lateEntry a with cue := { (lateEntry a).cue with late := .runLate } }
    let s : State := { inState .running with cal := [e] }
    s.free ∧ s.eng.state = .running ∧ s.cal = e :: [] ∧ e.cue.due.toNat < s.now.toNat ∧ e.cue.late = .runLate ∧
      e.cue.action = a ∧ s.wr.queue.length < 32 ∧ s.wr.keeps = true ∧ s.eng.resetPending = false ∧
      (withWriter s { Writer.reset with queue := List.replicate 32 .endMarker }).wr.queue.length = 32 :=
  ⟨rfl, rfl, rfl, (by decide : 95 < 100), rfl, rfl, (by decide : 0 < 32), rfl, rfl, List.length_replicate⟩

/-- Late by one tick and by five. -/
theorem witness_LateCues :
    (lateEntry (.engine .endCue)).cue.due.toNat < (inState .running).now.toNat ∧
      (lateEntry (.engine .endCue)).cue.late = .skip ∧
      (aCue 99 .runLate (.engine (.note 1))).due.toNat < (inState .running).now.toNat ∧
      ((withLane (inState .running)
        { lane .active with head := some (headOf (aCue 99 .runLate (.engine (.note 1)))) }).lane 1).state = .active ∧
      (inState .running).cal.length + 4 ≤ 48 ∧
      (∀ x ∈ (due (.engine .endCue)).cal,
        Entry.before { entry (.engine .endCue) with cue := aCue 99 .runLate (.engine (.note 1)), seq := 3 } x = true) := by decide

theorem witness_SetCue :
    (due (.channel 2 (.set matchRecord))).dueNow (entry (.channel 2 (.set matchRecord))) [] ∧
      (∃ st, legalSettings 2 matchRecord = some st) ∧ ((due (.channel 2 (.set matchRecord))).chan 2).mode = .unset :=
  ⟨due_dueNow _, ⟨_, rfl⟩, rfl⟩

/-- A shape and a link at the largest number listed, and past it. -/
theorem witness_SetCue_record :
    let link (kind n : Nat) : BitVec 160 := matchRecord ||| BitVec.ofNat 160 (kind * 2 ^ 112 + n * 2 ^ 120)
    (∃ st, readSettings (matchRecord ||| 3) = some st) ∧ readSettings (matchRecord ||| 4) = none ∧
      (∃ st, readSettings (link 1 9) = some st) ∧ readSettings (link 1 10) = none ∧
      (∃ st, readSettings (link 2 15) = some st) ∧ readSettings (link 2 16) = none ∧
      readSettings (link 0 1) = none ∧ readSettings (link 3 0) = none :=
  ⟨⟨_, rfl⟩, by decide, ⟨_, rfl⟩, by decide, ⟨_, rfl⟩, by decide, by decide, by decide⟩

theorem witness_StartCue (m : ChanMode) (sh : Shape) (staged : Option Marks) :
    let c : Channel := { channel m sh with staged := staged }
    (withChan (due (.channel 2 .start)) c).dueNow (entry (.channel 2 .start)) [] ∧
      ((withChan (due (.channel 2 .start)) c).chan 2).mode = m ∧
      ((withChan (due (.channel 2 .start)) c).chan 2).settings = some (settings sh) ∧
      ((withChan (due (.channel 2 .start)) c).chan 2).staged = staged :=
  ⟨due_chan_dueNow _ _, by simp [withChan, channel], by simp [withChan, channel], by simp [withChan]⟩

theorem witness_StopPauseResumeCues (m : ChanMode) (v : ChanVerb) (p : PausedFrom) :
    (withChan (due (.channel 2 v)) { channel m .oneShot with pausedFrom := some p }).dueNow (entry (.channel 2 v)) [] ∧
      ((withChan (due (.channel 2 v)) { channel m .oneShot with pausedFrom := some p }).chan 2).mode = m ∧
      ((withChan (due (.channel 2 v)) { channel m .oneShot with pausedFrom := some p }).chan 2).pausedFrom = some p :=
  ⟨due_chan_dueNow _ _, rfl, rfl⟩

theorem witness_StageAndFireCues (m : ChanMode) (sh : Shape) (v : ChanVerb) :
    (withChan (due (.channel 2 v)) (channel m sh)).dueNow (entry (.channel 2 v)) [] ∧
      ((withChan (due (.channel 2 v)) (channel m sh)).chan 2).mode = m ∧
      ((withChan (due (.channel 2 v)) (channel m sh)).chan 2).settings = some (settings sh) ∧
      (settings sh).retrigger = .extend ∧ ({ settings sh with retrigger := .ignore } : Settings).retrigger = .ignore ∧
      ¬ ((settings sh).shape ≠ .oneShot ∧ (settings sh).wrapSource = .action) ∧
      (some (0x0001 : Half)).getD (settings sh).action ≠ 0 :=
  ⟨due_chan_dueNow _ _, (withChan_mode _ m sh).1, (withChan_mode _ m sh).2, rfl, rfl, by simp [settings], by simp⟩

/-- A queue of 31 items takes a close marker, one of 32 refuses it. -/
theorem witness_SnapshotNoteAndClosePageCues :
    (withWriter (due (.engine .closePage)) { Writer.reset with queue := List.replicate 31 .endMarker }).dueNow
        (entry (.engine .closePage)) [] ∧
      (List.replicate 31 Item.endMarker).length < 32 ∧ (List.replicate 32 Item.endMarker).length = 32 ∧
      (due (.engine (.note 1))).dueNow (entry (.engine (.note 1))) [] ∧ Writer.reset.keeps = true ∧
      (due (.channel 2 .snapshot)).dueNow (entry (.channel 2 .snapshot)) [] :=
  ⟨due_writer_dueNow _ _, by decide, by decide, due_dueNow _, by decide, due_dueNow _⟩

theorem witness_RefusedChannelVerbs (m : ChanMode) (sh : Shape) (v : ChanVerb) :
    (withChan (due (.channel 2 v)) (channel m sh)).dueNow (entry (.channel 2 v)) [] ∧
      ((withChan (due (.channel 2 v)) (channel m sh)).chan 2).mode = m ∧ legalSettings 2 4 = none ∧
      ((some 0 : Option Half)).getD (settings .oneShot).action = 0 :=
  ⟨due_chan_dueNow _ _, (withChan_mode _ m sh).1, by decide, rfl⟩

theorem witness_PowerCues (p : PowerState) :
    (withConv (due (.converter .powerOn)) (conv p)).dueNow (entry (.converter .powerOn)) [] ∧
      (withConv (due (.converter .powerOn)) (conv p)).conv.power = p ∧
      0 < (withConv (due (.converter .powerOn)) (conv p)).tb.divider ∧
      (withConv (due (.converter .powerOff)) { conv p with queue := [aConvRequest] }).dueNow (entry (.converter .powerOff)) [] ∧
      (withConv (due (.converter .powerOff)) { conv p with queue := [aConvRequest] }).conv.power = p :=
  ⟨due_conv_dueNow _ _, rfl, (by decide : 0 < 100), due_conv_dueNow _ _, rfl⟩

theorem witness_ReferenceCue (p : PowerState) :
    (withConv (due (.converter (.reference .vrefPin))) (conv p)).dueNow (entry (.converter (.reference .vrefPin))) [] ∧
      (withConv (due (.converter (.reference .vrefPin))) (conv p)).conv.power = p ∧
      Reference.vrefPin ≠ (conv p).pendingRef.getD (conv p).current ∧
      Reference.supply = (conv p).pendingRef.getD (conv p).current ∧
      Reference.supply ≠ ({ conv p with pendingRef := some .vrefPin } : Converter).pendingRef.getD (conv p).current :=
  ⟨due_conv_dueNow _ _, rfl, by simp [conv, Converter.reset], rfl, by simp⟩

/-- Room for exactly the two requests of the mask. -/
theorem witness_ConvertCue (p : PowerState) :
    (withConv (due (.converter (.convert 0x201))) { conv p with queue := List.replicate 6 aConvRequest }).dueNow
        (entry (.converter (.convert 0x201))) [] ∧
      (List.replicate 6 aConvRequest).length +
        ((List.finRange 10).filter fun k => (0x201 : BitVec 10).getLsbD k.val).length ≤ 8 ∧
      (((List.finRange 10).filter fun k => (0x201 : BitVec 10).getLsbD k.val).map fun k =>
        ({ input := k, source := .cue 1 2, tag := 3 } : ConvRequest)) =
        { input := 0, source := .cue 1 2, tag := 3 } :: [{ input := 9, source := .cue 1 2, tag := 3 }] ∧
      (withConv (due (.converter (.convert 0x201))) (conv .ready)).conv.queue = [] :=
  ⟨due_conv_dueNow _ _, by decide, by decide, rfl⟩

/-- With a free place less than the mask asks for, with none, and nine requests in an empty queue. -/
theorem witness_ConvertCue_partly :
    8 - (List.replicate 7 aConvRequest).length < ((List.finRange 10).filter fun k => (0x201 : BitVec 10).getLsbD k.val).length ∧
      8 - (List.replicate 8 aConvRequest).length = 0 ∧ 8 - (List.replicate 7 aConvRequest).length ≠ 0 ∧
      8 < ((List.finRange 10).filter fun k => (0x1FF : BitVec 10).getLsbD k.val).length ∧
      ((List.finRange 10).filter fun k => (0x1FF : BitVec 10).getLsbD k.val) = 0 :: [1, 2, 3, 4, 5, 6, 7, 8] := by decide

theorem witness_EndCue :
    (due (.engine .endCue)).dueNow (entry (.engine .endCue)) [] ∧ (due (.engine .endCue)).eng.resetPending = false :=
  ⟨due_dueNow _, rfl⟩

/-- Due exactly at the horizon, one tick beyond it, and a Calendar with four places left. -/
theorem witness_HeadOffer :
    (inState .running).takesCues = true ∧
      (aCue 1100 .skip (.engine .endCue)).due.toNat ≤ (inState .running).now.toNat + (inState .running).params.horizon.toNat ∧
      (inState .running).now.toNat + (inState .running).params.horizon.toNat < (aCue 1101 .skip (.engine .endCue)).due.toNat ∧
      (List.replicate 44 (entry (.engine .endCue))).length + 4 ≤ 48 ∧
      ((withLane (inState .running) { lane .active with head := some (headOf (aCue 1100 .skip (.engine .endCue))) }).lane 1).head =
        some (headOf (aCue 1100 .skip (.engine .endCue))) ∧
      (lane .blocked).trail = [aTrail] ∧ aTrail.address = (headOf (aCue 1100 .skip (.engine .endCue))).trailRef := by decide

/-- A lane without a head, and one with a held head; and the three steps of Calendar order. -/
theorem witness_HeadOffer_none :
    let held : Head := { headOf (aCue 50 .skip (.engine .endCue)) with body := .held .malformed }
    let e : Entry := entry (.engine .endCue)
    ((inState .running).lane 1).head = none ∧
      ((withLane (inState .running) { lane .active with head := some held }).lane 1).head = some held ∧
      held.body = .held .malformed ∧ e.before { e with cue := aCue 101 .skip (.engine .endCue), lane := 0 } = true ∧
      e.before { e with lane := 2, seq := 1 } = true ∧ e.before { e with seq := 3 } = true ∧ e.before e = false := by decide

/-- Heads of lanes 0 and 1 beside 45, 46, 47 and 48 entries: where two are free, where one is and the head due first is
lane 1's, where due times are equal, and where none is; a late head behind an entry that comes before it. -/
theorem witness_HeadOffer_few_entries :
    let heads (due : Tick) : State := withLane ((inState .running).setLane 0
      { lane .active with head := some (headOf (aCue 120 .skip (.engine .endCue))) })
      { lane .active with head := some (headOf (aCue due .skip (.engine .endCue))) }
    (heads 110).offeredCount = 2 ∧ 46 + (heads 110).offeredCount ≤ 48 ∧ 48 < 47 + (heads 110).offeredCount ∧
      (heads 110).offeredHead 1 = some (headOf (aCue 110 .skip (.engine .endCue)), aCue 110 .skip (.engine .endCue)) ∧
      (110 : Tick).toNat < (120 : Tick).toNat ∧ (0 : LaneId) < 1 ∧
      (∀ j, j ≠ 0 → j ≠ 1 → (heads 110).offeredHead j = none) ∧ (heads 120).offeredCount = 2 ∧
      (inState .running).now.toNat ≤ (aCue 100 .skip (.engine .endCue)).due.toNat ∧
      ({ entry (.engine .endCue) with cue := aCue 99 .skip (.engine .endCue), seq := 3 } : Entry).before
        { entry (.engine .endCue) with cue := aCue 99 .skip (.engine .endCue) } = false := by decide

theorem witness_LinksDelivered :
    ({ withChan (inState .running) (channel .armed .oneShot) with links := [aDelivery (.fire 2)] } : State).links =
        [aDelivery (.fire 2)] ∧
      ((withChan (inState .running) (channel .armed .oneShot)).chan 2).mode = .armed ∧
      ((withChan (inState .running) (channel .pulsing .oneShot)).chan 2).mode = .pulsing ∧
      (aDelivery (.convert 9)).link = .convert 9 ∧
      ({ conv .ready with closing := some .fault } : Converter).closing = some .fault ∧
      ({ conv .ready with queue := List.replicate 8 aConvRequest } : Converter).queue.length = 8 ∧
      ({ conv .warming with queue := List.replicate 7 aConvRequest } : Converter).queue.length < 8 ∧
      0 < (inState .running).tb.divider := by decide

/-- A request under way after an abort, a delivery in each place of the invariant, and a command of every kind the no-loss
clause speaks of. -/
theorem witness_LinksDelivered_under_way :
    let stopped : State := { inState .ended with conv := { conv .off with closing := some .fault },
                                                 links := [aDelivery (.convert 9)] }
    stopped.free ∧ stopped.eng.resetPending = false ∧ stopped.tb.runs = false ∧ stopped.conv.power = .off ∧
      (∀ d ∈ stopped.links, d.link ≠ .none) ∧ stopped.linksTaken ∧ stopped.channelsRest ∧
      State.linksTaken { inState .running with links := [aDelivery (.convert 9)] } ∧
      (∃ t, step { stopped with pending := [.abort] } = .next t) ∧
      (∃ t, exec (.tickArrival 2 .low) stopped = .next t) ∧ (∃ t, exec .prepare base = .next t) := by
  refine ⟨rfl, rfl, rfl, rfl, by decide, ⟨fun _ => ⟨.inr (.inr ⟨.inl rfl, rfl⟩), rfl⟩, by decide⟩, ?_,
    ⟨fun _ => ⟨.inl rfl, rfl⟩, by decide⟩, ⟨_, rfl⟩, ⟨_, rfl⟩, ⟨_, rfl⟩⟩
  have out : ∀ c : ChanId, (base.chans[c]).output = (base.chans[c]).restLevel ∧ (base.chans[c]).mode = .unset := by decide
  exact fun ch => ⟨fun _ => (out ch).1, fun _ => .inl (out ch).2⟩

/-- The end tick is now, and one tick away. -/
theorem witness_TimedOperationsEnd :
    (withConv (inState .running) { conv .warming with endTick := some 100 }).conv.endTick = some 100 ∧
      100 ≤ (inState .running).now.toNat ∧ (inState .running).now.toNat < 101 ∧
      (withConv (inState .running)
        { conv .converting with endTick := some 100, inFlight := some aConversion, pendingRef := some .vrefPin }).conv.pendingRef =
        some .vrefPin ∧
      (withConv (inState .draining)
        { conv .converting with endTick := some 100, inFlight := some aConversion, closing := some .sessionEnd }).conv.closing ≠
        none := by decide

theorem witness_RequestsPresented :
    base.port.engine = .none ∧ base.port.window = none ∧ (after .prepare base).eng.task = .readFirst ∧
      (inState .running).port.window = some { base := 0x100000, limit := 0x200000 } ∧
      ((withLane (inState .running) (lane .active)).lane 1).oldestComplete = false ∧
      (lane .active).finish = none ∧ (lane .active).fetchIndex < (lane .active).knownFill ∧
      ({ lane .active with knownFill := 0 } : Lane).fetchIndex = ({ lane .active with knownFill := 0 } : Lane).knownFill ∧
      ({ lane .active with seqCounter := BitVec.allOnes 32 } : Lane).seqCounter = BitVec.allOnes 32 ∧
      (withWriter (inState .running) (openWriter [.record aRecord])).wr.queue = [.record aRecord] ∧
      (aPage.address + BitVec.ofNat 32 aPage.nextFree).toNat + recLength aRecord ≤ 0x200000 ∧
      (withWriter (inState .running) { Writer.reset with task := .table [] }).wr.task = .table [] := by decide

/-- A complete segment, a lane that is asked to reread, and one whose turn comes after two others. -/
theorem witness_RequestsPresented_loader :
    let full : TrailEntry := { aTrail with retired := 2, finish := some { fill := 2, next := 0 } }
    full.finish = some { fill := 2, next := 0 } ∧ full.retired = 2 ∧
      ({ lane .ended with trail := [full] } : Lane).trail = full :: [] ∧
      ({ lane .stopped with trail := [full] } : Lane).pendingAccess true = some .status ∧
      ({ lane .waiting with reread := .present } : Lane).reread ≠ .absent ∧ (lane .waiting).oldestComplete = false ∧
      (0x100008 : Word).toNat + 4 ≤ 0x200000 ∧ ¬ (0x1FFFF0 : Word).toNat + 32 ≤ 0x200000 ∧
      (∀ m : LaneId, m < 2 → ((inState .running).lane (0 + m)).pendingAccess false = none) ∧
      (∀ m : LaneId, m < 2 → ((inState .draining).lane (0 + m)).pendingAccess true ≠ some .status) ∧
      (inState .running).takesCues = true := by decide

/-- Each task of the writer, each write of the summary, and a record that does not lie in the window. -/
theorem witness_RequestsPresented_writer :
    (withWriter (inState .armed) { Writer.reset with task := .reject [{ slot := 3, reason := .badSize, entry := aSlot }] none }).wr.task =
        .reject ({ slot := 3, reason := .badSize, entry := aSlot } :: []) none ∧
      (withWriter (inState .armed) { Writer.reset with task := .fill { slot := 0, entry := aSlot } }).port.writer = .none ∧
      (withWriter (inState .draining) { openWriter [] with task := .header aClosing }).wr.page = some aPage ∧
      (flushing { openWriter [] with task := .closed aClosing }).wr.flushing = true ∧
      ({ openWriter [] with aborting := true } : Writer).aborting = true ∧
      ((0x120000 : Word) + BitVec.ofNat 32 (0x100 + 16 * 15)).toNat + 16 ≤ 0x200000 ∧
      ¬ ({ aPage with address := 0x1FFFF0 }.address + BitVec.ofNat 32 aPage.nextFree).toNat + 16 ≤ 0x200000 ∧
      (∀ k : Fin 3, ({ (inState .draining).eng with task := .summary k [] } : EngineControl).task = .summary k []) ∧
      ((0x120000 : Word) + 0xFC).toNat + 4 ≤ 0x200000 ∧ (inState .draining).port.engine = .none ∧
      ({ base.eng with task := .readSecond 0 } : EngineControl).task = .readSecond 0 ∧
      (after .reset base).eng.resetPending = true := by decide

/-- The last header of the window becomes a waiting request. -/
theorem witness_WaitingRequestsLieInWindow :
    ((after (.requestPresent .loader) { withLane (inState .running) { lane .active with current := 0x1FFFE0, knownFill := 0 } with
        loader := { (withLane (inState .running) { lane .active with current := 0x1FFFE0, knownFill := 0 }).loader with
          nextLane := 1 } }).port.request .loader) =
      .waiting { addr := 0x1FFFE0, len := 32, write := false, data := [] } := by decide

/-- All three wait; 24 items; 23 items with each last served. -/
theorem witness_GrantArbitrates :
    base.port.path = none ∧ base.port.quiet = none ∧
      ({ base.port with engine := .waiting aRequest } : Port).engine = .waiting aRequest ∧
      24 ≤ (List.replicate 24 (Item.record aRecord)).length ∧ (List.replicate 23 (Item.record aRecord)).length < 24 ∧
      base.port.lastServed = .writer ∧ ({ base.port with lastServed := .loader } : Port).lastServed = .loader := by decide

/-- A cue, a header and a status access, and an accepted head that waits or is the next to retire. -/
theorem witness_ResponsesAndTimeouts_kinds (k : LaneAccessKind) (l : Lane) :
    (loaderOut (inState .running) k l).port.request .loader = .outstanding aRequest 4 0 ∧
      (loaderOut (inState .running) k l).loader.access = some { lane := 1, kind := k, segment := 0x100000 } ∧
      (loaderOut (inState .running) k l).takesCues = true ∧ ((loaderOut (inState .running) k l).lane 1) = l ∧
      (headOf (aCue 110 .skip (.engine .endCue))).body = .accepted (aCue 110 .skip (.engine .endCue)) ∧
      (lane .active).cuesRetired ≠ (headOf (aCue 110 .skip (.engine .endCue))).seq ∧
      ({ lane .active with cuesRetired := 3 } : Lane).cuesRetired = (headOf (aCue 110 .skip (.engine .endCue))).seq :=
  ⟨rfl, rfl, rfl, rfl, rfl, by decide, rfl⟩

/-- A timeout exactly 40 microseconds after its grant, and one period earlier. -/
theorem witness_ResponsesAndTimeouts :
    (loaderOut (inState .running) .cue (lane .active)).port.request .loader = .outstanding aRequest 4 0 ∧
      0 + 4000 ≤ max base.pins.refClock 4000 ∧ max base.pins.refClock 3999 < 0 + 4000 ∧
      ((loaderOut (inState .running) .cue (lane .active)).lane 1).state = .active ∧
      ((loaderOut (inState .running) .cue (lane .active)).lane 1).head = none ∧
      (loaderOut (inState .running) .cue (lane .active)).loader.access =
        some { lane := 1, kind := .cue, segment := 0x100000 } := by decide

/-- A timeout of each requester, with no quiet interval. -/
theorem witness_ResponsesAndTimeouts_requesters (r : Requester) :
    let out : PortRequest := .outstanding aRequest 4 0
    let s : State := { base with port := { base.port with engine := out, loader := out, writer := out } }
    s.free ∧ s.port.request r = out ∧ s.port.quiet = none := by
  cases r <;> exact ⟨rfl, rfl, rfl⟩

/-- The 32 bytes of an END cue due at a tick. -/
def endCueData (due : Nat) : BusData := BitVec.ofNat 512 (due + 17 * 2 ^ 48 + 3 * 2 ^ 56)

/-- Due at the last due, and one tick before it; bytes that are no cue; a held cue with earlier ones, and with none. -/
theorem witness_CueFetched :
    readCue 0 = none ∧ (lane .active).cuesRetired = (lane .active).seqCounter ∧
    (∃ c, readCue (endCueData 50) = some c ∧ (50 : Tick).toNat ≤ c.due.toNat ∧ c.due.toNat < (51 : Tick).toNat) ∧
      ({ lane .active with lastDue := 51, seqCounter := 1 } : Lane).cuesRetired ≠ 1 ∧
      ((loaderOut (inState .running) .cue (lane .active)).lane 1).trail ≠ [] ∧
      ((loaderOut (inState .running) .cue (lane .active)).lane 1).finish = none :=
  ⟨by decide, by decide, ⟨_, rfl, by decide, by decide⟩, by decide, by decide, by decide⟩

/-- The 32 bytes of a cue due at tick 50. -/
def cueData (target verb flags params : Nat) : BusData :=
  BitVec.ofNat 512 (50 + target * 2 ^ 48 + verb * 2 ^ 56 + flags * 2 ^ 80 + params * 2 ^ 96)

def actionOf (d : BusData) : Option Action := (readCue d).map (·.action)

/-- A cue of each form, at the bounds of its parameters. -/
theorem witness_CueFetched_forms :
    actionOf (cueData 15 1 0 (10 * 2 ^ 16)) = some (.channel 15 (.set (10 * 2 ^ 16))) ∧
      actionOf (cueData 15 8 0 0) = some (.channel 15 .snapshot) ∧
      actionOf (cueData 2 6 3 (2 + 9 * 2 ^ 32)) = some (.channel 2 (.stage { period := none, action := some 9 })) ∧
      actionOf (cueData 16 3 0 1) = some (.converter (.reference .vrefPin)) ∧
      actionOf (cueData 16 4 0 1023) = some (.converter (.convert 1023)) ∧
      actionOf (cueData 17 1 4 (2 ^ 128 - 1)) = some (.engine (.note (BitVec.allOnes 128))) := by decide

/-- One past each bound: a target, a verb, a reserved flag, a parameter of a verb without any, a mask, a payload flag. -/
theorem witness_CueFetched_malformed :
    ([cueData 18 1 0 0, cueData 2 9 0 0, cueData 2 2 8 0, cueData 2 2 0 1, cueData 2 6 0 0, cueData 2 6 0 (2 + 2 ^ 16),
      cueData 16 3 0 2, cueData 16 4 0 0, cueData 16 4 0 1024, cueData 17 1 0 1, cueData 17 2 4 0, cueData 17 4 0 0,
      cueData 2 1 0 (2 ^ 144)].all fun d => (readCue d).isNone) = true := by decide

/-- In the initial fetch, ARMED and RUNNING, the cue below the final fill of a segment seen finished, and the one at it. -/
theorem witness_CueFetched_finished (st : EngineState) (h : st = .preparing ∨ st = .armed ∨ st = .running) (next : Word) :
    let l : Lane := { lane .active with trail := [{ aTrail with finish := some { fill := 2, next := next } }] }
    let s : State := loaderOut { inState st with eng := { (inState st).eng with checked := true } } .cue l
    s.free ∧ s.takesCues = true ∧ s.port.quiet = none ∧ s.eng.resetPending = false ∧ (s.lane 1).state = .active ∧
      (s.lane 1).head = none ∧ (s.lane 1).finish = some { fill := 2, next := next } ∧ (s.lane 1).fetchIndex + 1 ≠ 2 ∧
      ({ l with fetchIndex := 1 } : Lane).fetchIndex + 1 = 2 ∧
      ({ l with fetchIndex := 1 } : Lane).finish = some { fill := 2, next := next } := by
  rcases h with rfl | rfl | rfl <;> exact ⟨rfl, rfl, rfl, rfl, rfl, rfl, rfl, (by decide : 0 + 1 ≠ 2), rfl, rfl⟩

/-- The trail after such a fetch: full, with a free place and without the next segment, and with it. -/
theorem witness_CueFetched_moves_on :
    4 ≤ (List.replicate 4 aTrail).length ∧ [aTrail].length < 4 ∧ (0x1FF800 : Word) ≠ 0 ∧
      (∀ x ∈ [aTrail], x.address ≠ 0x1FF800) ∧ (∃ x ∈ [aTrail], x.address = 0x100000) := by decide

/-- A finished header with two cues: next 0, a segment at the end of the window, one past it, and one not aligned. -/
def finishedData (next : Nat) : BusData := BitVec.ofNat 512 (2 + 2 ^ 8 + next * 2 ^ 32)

theorem witness_HeaderReadAndStatusWrite_finished :
    ((finishedData 0x1FF800).extractLsb' 0 8).toNat = 2 ∧ (finishedData 0x1FF800).getLsbD 8 = true ∧
      (finishedData 0).extractLsb' 32 32 = 0 ∧
      (((finishedData 0x1FF800).extractLsb' 32 32).toNat % 2048 = 0 ∧
        ((finishedData 0x1FF800).extractLsb' 32 32).toNat + 2048 ≤ 0x200000) ∧
      ¬ ((finishedData 0x200000).extractLsb' 32 32).toNat + 2048 ≤ 0x200000 ∧
      ((finishedData 0x1FFC00).extractLsb' 32 32).toNat % 2048 ≠ 0 ∧
      ({ lane .active with fetchIndex := 2 } : Lane).fetchIndex = 2 ∧ (lane .active).fetchIndex ≠ 2 ∧
      4 ≤ (List.replicate 4 aTrail).length ∧ [aTrail].length < 4 ∧ (∀ x ∈ [aTrail], x.address ≠ 0x1FF800) ∧
      (∃ x ∈ [aTrail], x.address = 0x100000) ∧
      ({ lane .blocked with pendingNext := some 0x1FF800 } : Lane).pendingNext = some 0x1FF800 := by decide

/-- A fill of 64, of 63, of the known fill, and one below it; a status write of a lane's last segment. -/
theorem witness_HeaderReadAndStatusWrite :
    63 < ((64 : BusData).extractLsb' 0 8).toNat ∧ ((63 : BusData).extractLsb' 0 8).toNat ≤ 63 ∧
      (63 : BusData).getLsbD 8 = false ∧ ((2 : BusData).extractLsb' 0 8).toNat = (lane .waiting).knownFill ∧
      ((1 : BusData).extractLsb' 0 8).toNat < (lane .waiting).knownFill ∧
      ((loaderOut (inState .running) .status (lane .ended)).lane 1).trail = [aTrail] ∧
      ((loaderOut (inState .running) .header (lane .waiting)).lane 1).reread = .absent ∧
      ((loaderOut (inState .running) .header { lane .waiting with reread := .present }).lane 1).reread = .present ∧
      ((loaderOut (inState .running) .header { lane .waiting with reread := .kept }).lane 1).reread = .kept := by decide

/-- A header read in the initial fetch and ARMED, and a status write of a STOPPED lane in a drain. -/
theorem witness_HeaderReadAndStatusWrite_states (st : EngineState) (h : st = .preparing ∨ st = .armed) :
    let checked : State := { inState st with eng := { (inState st).eng with checked := true } }
    (loaderOut checked .header (lane .waiting)).takesCues = true ∧
      (loaderOut (inState .draining) .status (lane .stopped)).loaderWorks = true ∧
      ((loaderOut (inState .draining) .status (lane .stopped)).lane 1).trail = aTrail :: [] ∧
      ((loaderOut (inState .draining) .status (lane .stopped)).lane 1).state = .stopped := by
  rcases h with rfl | rfl <;> exact ⟨rfl, rfl, rfl, rfl⟩

/-- A page with room for the record by one byte too few, and one that it just fills; a queue with a record at its head, one
with a marker there, and an access in progress. -/
theorem witness_RecordsOfferedAndTheirBytes_page :
    let page (free : Nat) : Page := { aPage with nextFree := free, records := 3, firstTick := some 80 }
    (page 497).size.toNat < (page 497).nextFree + recLength aRecord ∧
      (page 496).nextFree + recLength aRecord ≤ (page 496).size.toNat ∧
      (openWriter []).keeps = true ∧ (openWriter []).state = .opened ∧ (openWriter []).task = .none ∧
      (openWriter []).queue ++ [.record aRecord] = [.record aRecord] ∧
      (openWriter [.closeMarker aMarker]).queue ++ [.record aRecord] = [.closeMarker aMarker, .record aRecord] ∧
      ({ openWriter [.record aRecord] with task := .record 16 } : Writer).task ≠ .none := by decide

/-- 31 items, 32 items, and a DONE writer. -/
theorem witness_RecordsOfferedAndTheirBytes :
    (withWriter base { Writer.reset with queue := List.replicate 31 (.record aRecord) }).wr.queue.length < 32 ∧
      Writer.reset.keeps = true ∧ 32 ≤ (List.replicate 32 (Item.record aRecord)).length ∧
      ({ Writer.reset with state := .done } : Writer).keeps = false := by decide

/-- Fields of a record, of the FAULT record and of a page header, and a page with a first record. -/
theorem witness_RecordsOfferedAndTheirBytes_fields :
    let b : List Byte := recBytes (.laneEvent 3 (.fault .sequenceLimit) 0x12345678 4 0xABCDEF012345)
    fieldOf b 0x02 1 = 7 ∧ fieldOf b 0x03 1 = 6 ∧ fieldOf b 0x04 4 = 0x12345678 ∧ fieldOf b 0x0C 4 = 0xEF012345 ∧
      fieldOf ({ code := .timebaseEnd, secondary := true, address := 0, tick := 0xABCDEF012345 } : FaultRecord).bytes 0x08 6 =
        0xABCDEF012345 ∧
      fieldOf (pageHeaderBytes 9 { aPage with firstTick := some 80 } aClosing) 0x14 6 = 80 := by decide

/-- The states in which the writer fills pages. -/
theorem fillsPages_states :
    (inState .armed).fillsPages ∧ (inState .running).fillsPages ∧ (inState .draining).fillsPages ∧
      State.fillsPages { inState .preparing with eng := { (inState .preparing).eng with checked := true } } ∧
      ¬ (inState .preparing).fillsPages ∧ ¬ (inState .faulted).fillsPages := by unfold State.fillsPages; decide

theorem witness_SlotTakingAndChecks :
    (withWriter (inState .armed) { Writer.reset with queue := [.record aRecord] }).wr.queue = [.record aRecord] ∧
      (withWriter (inState .armed) { Writer.reset with queue := [.record aRecord] }).wr.state = .idle ∧
      (withWriter (inState .armed) { Writer.reset with queue := [.record aRecord] }).wr.task = .none := by decide

theorem witness_PageWritesAnswered :
    (writerOut (withWriter (inState .running)
        { openWriter [.record aRecord, .record aRecord] with task := .record (recLength aRecord) })).port.writer =
        .outstanding aRequest 4 0 ∧
      aPage.nextFree + recLength aRecord + recLength aRecord ≤ aPage.size.toNat ∧
      (writerOut (withWriter (inState .running) { openWriter [] with task := .closed aClosing })).wr.task = .closed aClosing ∧
      Writer.reset.closeSeq ≠ BitVec.allOnes 32 ∧ aClosing.marker = none ∧
      (writerOut (withWriter (inState .running)
        { Writer.reset with queue := [.record aRecord], task := .fill { slot := 0, entry := aSlot } })).wr.queue =
        [.record aRecord] ∧
      512 ≤ aSlot.size.toNat ∧ (List.replicate 8 aSlot).length + 4 < 16 := by decide

/-- A record that fills its page, then one that does not fit; a record alone; twelve entries, with the last four bad, good
or none offered; a rejection that is the last, and one that is not. -/
theorem witness_PageWritesAnswered_more :
    ({ aPage with nextFree := 496 } : Page).nextFree + recLength aRecord ≤ aPage.size.toNat ∧
      aPage.size.toNat < ({ aPage with nextFree := 496 } : Page).nextFree + recLength aRecord + recLength (.capture 1 .rise 0 0 0 0) ∧
      (List.replicate 12 aSlot).length = 12 ∧
      examineSlots (inState .running).port.window ((List.finRange 16).zip [aSlot, aSlot]) =
        ([], some { slot := 0, entry := aSlot }) ∧
      examineSlots (inState .running).port.window ((List.finRange 16).zip [{ aSlot with size := 256 }, aSlot]) =
        ([{ slot := 0, reason := .badSize, entry := { aSlot with size := 256 } }], some { slot := 1, entry := aSlot }) ∧
      examineSlots (inState .running).port.window ((List.finRange 16).zip [{ aSlot with state := 0 }]) = ([], none) ∧
      (withWriter (inState .running) { Writer.reset with task := .table [] }).wr.state = .idle ∧
      (withWriter (inState .running) { Writer.reset with state := .starved, reread := .kept, task := .table [] }).wr.state =
        .starved := by decide

/-- The close of a CLOSE_PAGE cue, in time or late, with its report flag 0 or 1. -/
theorem witness_PageWritesAnswered_cue (late : Option Half) (flag : Bool) :
    let m : CloseMarker := { aMarker with lateness := late, report := flag }
    let c : Closing := { aClosing with cause := .cue, marker := some m }
    let s : State := writerOut (withWriter (inState .running) { openWriter [] with task := .closed c })
    s.free ∧ s.port.quiet = none ∧ s.eng.resetPending = false ∧ s.eng.state = .running ∧ s.wr.aborting = false ∧
      s.wr.flushing = false ∧ s.wr.endTaken = false ∧ s.wr.task = .closed c ∧ s.wr.closeSeq ≠ BitVec.allOnes 32 :=
  ⟨rfl, rfl, rfl, rfl, rfl, rfl, rfl, rfl, (by decide : Writer.reset.closeSeq ≠ BitVec.allOnes 32)⟩

/-- The close of SESSION_END with a record queued behind it, and the last close that the counter allows. -/
theorem witness_PageWritesAnswered_ends :
    let w : Writer := { openWriter [.record aRecord] with task := .closed { aClosing with cause := .sessionEnd }, endTaken := true }
    let s : State := writerOut (withWriter (inState .draining) w)
    s.fillsPages ∧ s.wr.flushing = false ∧ s.wr.aborting = false ∧ s.wr.faultRecord = none ∧
      s.wr.task = .closed { aClosing with cause := .sessionEnd } ∧
      (after (.response .writer 4 true 0) s).wr.lost = 1 ∧ (after (.response .writer 4 true 0) s).eng.pathComplete = true ∧
      ({ w with closeSeq := BitVec.allOnes 32, task := .closed aClosing } : Writer).closeSeq = BitVec.allOnes 32 ∧
      aClosing.cause = .full := by unfold State.fillsPages; decide

/-- A close after the end marker, with nothing queued and with a record; a record write with a marker behind it, and one
after the end marker. -/
theorem witness_PageWritesAnswered_endTaken (q : List Item) :
    let w : Writer := { openWriter q with task := .closed aClosing, endTaken := true }
    (Writer.offered { w with state := .idle, page := none, task := .none } 100 []).queue = q ∧ w.endTaken = true ∧
      ({ openWriter [.record aRecord, .closeMarker aMarker] with task := .record 16 } : Writer).queue =
        [.record aRecord, .closeMarker aMarker] ∧
      ({ openWriter [.record aRecord] with task := .record 16, endTaken := true } : Writer).deadlineDue = false :=
  ⟨rfl, rfl, rfl, rfl⟩

theorem witness_MarkersReached :
    (withWriter (inState .running) (openWriter [.closeMarker aMarker])).wr.queue = [.closeMarker aMarker] ∧
      (withWriter (inState .running) { Writer.reset with queue := .closeMarker aMarker :: List.replicate 31 .endMarker }).wr.keeps =
        true ∧
      (List.replicate 31 Item.endMarker).length < 32 ∧ aMarker.lateness = none ∧
      (withWriter (inState .draining) (openWriter [.endMarker])).wr.queue = [.endMarker] ∧
      (withWriter (inState .draining) { Writer.reset with queue := [.endMarker] }).wr.page = none := by decide

/-- A marker in a drain, in time or late, with a page open and with none. -/
theorem witness_MarkersReached_late (late : Option Half) (flag : Bool) :
    let q : List Item := [.closeMarker { aMarker with lateness := late, report := flag }]
    let s : State := withWriter (inState .draining) { Writer.reset with queue := q }
    s.free ∧ s.eng.state = .draining ∧ s.wr.task = .none ∧ s.wr.queue = q ∧ s.wr.state = .idle ∧ s.wr.page = none ∧
      s.wr.keeps = true ∧ s.wr.endTaken = false ∧ s.wr.flushing = false ∧
      (withWriter (inState .draining) (openWriter q)).wr.page = some aPage :=
  ⟨rfl, rfl, rfl, rfl, rfl, rfl, rfl, rfl, rfl, rfl⟩

/-- Behind the end marker: a record that fits the open page, one that does not, a close marker; and a close marker after the
end marker, with nothing behind it and with a record. -/
theorem witness_MarkersReached_behind :
    (withWriter (inState .draining) (openWriter [.endMarker, .record aRecord])).wr.queue = [.endMarker, .record aRecord] ∧
      aPage.nextFree + recLength aRecord ≤ aPage.size.toNat ∧
      aPage.size.toNat < ({ aPage with nextFree := 500 } : Page).nextFree + recLength aRecord ∧
      (∀ r, Item.closeMarker aMarker = .record r → aPage.nextFree + recLength r ≤ aPage.size.toNat) ∧
      (withWriter (inState .draining) { Writer.reset with queue := [.closeMarker aMarker], endTaken := true }).wr.endTaken =
        true ∧
      ({ aMarker with report := false } : CloseMarker).report = false :=
  ⟨rfl, by decide, by decide, fun _ h => (nomatch h), rfl, rfl⟩

/-- At the deadline, one tick before it, and the 16th and 15th scan event. -/
theorem witness_DeadlineAndDrainLimit :
    (80 : Tick).toNat + (inState .running).params.deadline.toNat ≤ (inState .running).now.toNat ∧
      (inState .running).now.toNat < (81 : Tick).toNat + (inState .running).params.deadline.toNat ∧
      (withWriter (inState .running)
        { openWriter [] with page := some { aPage with firstTick := some 80 } }).wr.page =
        some { aPage with firstTick := some 80 } ∧
      (inState .running).params.deadline.toNat ≠ 0 ∧
      16 ≤ (withWriter (inState .draining) { Writer.reset with state := .starved, starveCount := 16 }).wr.starveCount ∧
      (withWriter (inState .draining) { Writer.reset with state := .starved, starveCount := 15 }).wr.starveCount < 16 ∧
      (after .reset (withWriter (inState .draining) { Writer.reset with state := .starved, starveCount := 16 })).eng.resetPending =
        true := by decide

/-- A record write outstanding at the deadline, before the expiry and after it. -/
theorem witness_DeadlineAndDrainLimit_record (due : Bool) :
    let p : Page := { aPage with firstTick := some 80 }
    let w : Writer := { openWriter [.record aRecord] with page := some p, task := .record 16, deadlineDue := due }
    let s : State := writerOut (withWriter (inState .running) w)
    s.free ∧ s.tb.runs = true ∧ s.port.quiet = none ∧ s.eng.state = .running ∧ s.wr.aborting = false ∧
      s.wr.state = .opened ∧ s.wr.page = some p ∧ s.wr.task = .record 16 ∧ s.wr.queue = [.record aRecord] ∧
      s.wr.deadlineDue = due ∧ s.port.writer = .outstanding aRequest 4 0 :=
  ⟨rfl, rfl, rfl, rfl, rfl, rfl, rfl, rfl, rfl, rfl, rfl⟩

/-- In a drain with the timebase running, at the deadline; with a close decided; and with the timebase held. -/
theorem witness_DeadlineAndDrainLimit_drain :
    let p : Page := { aPage with firstTick := some 80 }
    let s : State := withWriter (inState .draining) { openWriter [] with page := some p }
    s.free ∧ s.tb.runs = true ∧ s.eng.state = .draining ∧ s.wr.state = .opened ∧ s.wr.page = some p ∧
      p.firstTick = some 80 ∧ s.wr.task = .none ∧ ({ openWriter [] with task := .header aClosing } : Writer).task = .header aClosing ∧
      (inState .armed).tb.runs = false ∧ (after .deadlineExpiry s).wr.closeSeq = 1 := by
  refine ⟨rfl, ?_⟩
  decide

def setupError (cba : Word) (cb : BitVec 1024) : Bool :=
  match prepareChecks cba cb with
  | .error _ => true
  | .ok _ => false

theorem witness_SecondReadAnswered :
    (engineOut (inState .preparing) (.readSecond 0)).port.engine = .outstanding aRequest 4 0 ∧
      setupError 0x120000 ((0 : BusData) ++ (0 : BusData)) = true ∧
      setupError 0x120000 (((controlBlock 100 5 0 1).extractLsb' 512 512) ++ ((controlBlock 100 5 0 1).extractLsb' 0 512)) =
        false := by decide

theorem witness_SecondReadAnswered_first (t : EngineTask) (h : t = .readFirst ∨ t = .readSecond 0) :
    let s : State := engineOut (inState .preparing) t
    s.free ∧ s.port.quiet = none ∧ s.eng.resetPending = false ∧ s.eng.state = .preparing ∧ s.eng.aborting = false ∧
      s.eng.staleRead = false ∧ s.eng.task = t ∧ s.port.engine = .outstanding aRequest 4 0 := by
  rcases h with rfl | rfl <;> exact ⟨rfl, rfl, rfl, rfl, rfl, rfl, rfl, rfl⟩

theorem witness_InitialFetchAndDrainSteps :
    ({ inState .preparing with eng := { (inState .preparing).eng with checked := true } } : State).eng.checked = true ∧
      (∀ i : LaneId, ((inState .preparing).lane i).state ≠ .active ∧ ((inState .preparing).lane i).state ≠ .stopped) ∧
      ((withLane (inState .preparing) (lane .active)).lane 1).head = none ∧
      (∀ i : LaneId, ((inState .draining).lane i).oldestComplete = false ∧ ((inState .draining).lane i).state = .off) ∧
      (withWriter (inState .draining) { Writer.reset with queue := List.replicate 31 (.record aRecord) }).wr.queue.length < 32 ∧
      (List.replicate 32 (Item.record aRecord)).length = 32 ∧
      (aDelivery (.convert 9)).asksConversion = true ∧ (aDelivery (.fire 2)).asksConversion = false := by decide

/-- ACTIVE lanes with a head beyond the horizon, held, or without a free entry; a lane whose read is outstanding. -/
theorem witness_InitialFetchAndDrainSteps_heads :
    let fetching : State := { inState .preparing with eng := { (inState .preparing).eng with checked := true } }
    let far : State := withLane fetching { lane .active with head := some (headOf (aCue 1101 .skip (.engine .endCue))) }
    let near : State := withLane fetching { lane .active with head := some (headOf (aCue 110 .skip (.engine .endCue))) }
    let full : State := { near with cal := List.replicate 48 (entry (.engine .endCue)) }
    (far.lane 1).head ≠ none ∧ far.offeredHead 1 = none ∧ (after .initialFetchComplete far).eng.state = .armed ∧
      (near.offeredHead 1).isSome = true ∧ (after .initialFetchComplete near).eng.state = .preparing ∧
      48 ≤ full.cal.length ∧ (after .initialFetchComplete full).eng.state = .armed ∧
      (after .initialFetchComplete (loaderOut fetching .header (lane .waiting))).eng.state = .preparing := by decide

theorem witness_EndSummaryWritten :
    ({ inState .draining with
        eng := { (inState .draining).eng with converterIdle := true, loaderQuiet := true, pathComplete := true,
                                              markerPlaced := true } } : State).eng.markerPlaced = true ∧
      (inState .draining).eng.task = .none ∧ (inState .draining).port.engine = .none ∧ (inState .draining).links = [] ∧
      [aDelivery (.convert 9)] ≠ [] ∧
      (engineOut (inState .draining) (.summary 2 [])).port.engine = .outstanding aRequest 4 0 := by decide

/-- The summary of an abort and of a wind-down, and each of its writes. -/
theorem witness_EndSummaryWritten_ends (w : Fin 3) :
    (∀ st : EngineState, st = .ended ∨ st = .faulted →
      let s : State := { inState st with
        eng := { (inState st).eng with converterIdle := true, loaderQuiet := true, pathComplete := true } }
      s.free ∧ s.eng.windDown = false ∧ s.eng.resetPending = false ∧ s.eng.task = .none ∧ s.port.engine = .none) ∧
      (engineOut (inState .faulted) (.summary w [])).eng.task = .summary w [] ∧
      (engineOut (inState .ended) (.summary w [])).port.quiet = none ∧ (0 : Fin 3) ≠ 2 ∧ (1 : Fin 3) ≠ 2 :=
  ⟨fun _ _ => ⟨rfl, rfl, rfl, rfl, rfl⟩, rfl, rfl, by decide, by decide⟩

/-- Every invariant holds of a state with something in every place it speaks of, and a step leaves it a next state. -/
theorem witness_invariants :
    State.calendarInOrder { inState .running with cal := [entry (.engine .closePage), { entry (.engine .endCue) with seq := 3 }] } ∧
      (withWriter (inState .running) (openWriter [.record aRecord])).wr.coherent ∧
      State.pathHeld { writerOut base with port := { (writerOut base).port with path := some .writer } } ∧
      (inState .running).timebaseHeld ∧ (∃ t, step { inState .running with pending := [.expiry] } = .next t) := by
  refine ⟨?_, rfl, ?_, ?_, _, rfl⟩
  · exact List.Pairwise.cons (by decide) (List.pairwise_singleton _ _)
  · intro r h
    have : r = .writer := by cases r <;> simp_all
    subst this
    rfl
  · refine ⟨by decide, fun _ => Or.inl rfl, ?_, ?_⟩ <;> intro h <;> cases h

/-- A running session with a due entry, a record in an open page, a channel at rest, and a transaction that holds the path. -/
def wholeState : State :=
  { writerOut (withWriter (due (.engine (.note 1))) (openWriter [.record aRecord])) with
    pending := [.expiry]
    port := { (writerOut base).port with path := some .writer } }

theorem witness_StepKeepsEveryInvariant : wholeState.safe ∧ (∃ t, step wholeState = .next t) ∧ wholeState.free := by
  refine ⟨⟨by unfold State.withinPlaces; decide, List.pairwise_singleton _ _, ?_, ?_, ?_, rfl, ?_, ?_⟩, ⟨_, rfl⟩, rfl⟩
  · intro ch
    have out : ∀ c : ChanId, (wholeState.chans[c]).output = (wholeState.chans[c]).restLevel := by decide
    exact ⟨fun _ => out ch, fun h => absurd rfl h⟩
  · intro ch st h
    have unset : ∀ c : ChanId, (wholeState.chans[c]).settings = none := by decide
    rw [unset ch] at h
    cases h
  · intro r h
    have : r = .writer := by cases r <;> simp_all [wholeState]
    subst this
    rfl
  · exact ⟨by decide, fun _ => Or.inl rfl, (by decide), (by decide)⟩
  · exact ⟨fun h => absurd rfl h, fun h => by cases h⟩

end Sys2Proof.Tests
end

section
/-! PROOFS. A channel's clock event, its wrap limit and its staged marks (Chapter 3): the rules of each function of the
channel, once, and the settling of O20. -/

namespace Sys2Proof.Machine

/-! ## The channel's clock (R55, R56) -/

theorem Channel.clock_of_div (c : Channel) {st : Settings} (edge : Option Edge) {k : Fin 8} (h : st.clock = .div k) :
    c.clock st edge =
      if c.phase + 1 < 2 ^ k.val then ({ c with phase := c.phase + 1 }, false) else ({ c with phase := 0 }, true) := by
  simp only [Channel.clock, h, Clock.divisor]

theorem Clock.divisor_of_isEdge {k : Clock} (h : k.isEdge = true) : k.divisor = none := by
  cases k with
  | div n => cases h
  | edgeRise | edgeFall | edgeBoth => rfl

theorem Channel.clock_of_edge (c : Channel) {st : Settings} (e : Edge) (h : st.clock.isEdge = true) :
    c.clock st (some e) = (c, st.clock.selects e) := by
  simp only [Channel.clock, Clock.divisor_of_isEdge h]

theorem Channel.clock_of_no_edge (c : Channel) {st : Settings} (h : st.clock.isEdge = true) :
    c.clock st none = (c, false) := by
  simp only [Channel.clock, Clock.divisor_of_isEdge h]

theorem Clock.selects_iff (k : Clock) (e : Edge) :
    k.selects e = true ↔ k = .edgeBoth ∨ (k = .edgeRise ∧ e = .rise) ∨ (k = .edgeFall ∧ e = .fall) := by
  cases k <;> cases e <;> simp [Clock.selects]

/-- A clock event comes when the divider's count is reached, or with an edge that the clock selects. -/
theorem Channel.clock_spec (c : Channel) (st : Settings) (edge : Option Edge) :
    (∀ k, st.clock = .div k → c.phase + 1 < 2 ^ k.val → c.clock st edge = ({ c with phase := c.phase + 1 }, false)) ∧
    (∀ k, st.clock = .div k → ¬ c.phase + 1 < 2 ^ k.val → c.clock st edge = ({ c with phase := 0 }, true)) ∧
    (∀ e, edge = some e → st.clock.isEdge = true →
      ((c.clock st edge) = (c, true) ↔
        (st.clock = .edgeBoth ∨ (st.clock = .edgeRise ∧ e = .rise) ∨ (st.clock = .edgeFall ∧ e = .fall)))) ∧
    (edge = none → st.clock.isEdge = true → c.clock st edge = (c, false)) := by
  refine ⟨fun k hk below => ?_, fun k hk reached => ?_, ?_, ?_⟩
  · rw [c.clock_of_div edge hk, if_pos below]
  · rw [c.clock_of_div edge hk, if_neg reached]
  · rintro e rfl isEdge
    rw [c.clock_of_edge e isEdge, ← Clock.selects_iff]
    simp
  · rintro rfl isEdge
    exact c.clock_of_no_edge isEdge

/-! ## The wrap limit (R58) -/

theorem Settings.wrapLimit_of_oneShot {st : Settings} (h : st.shape = .oneShot) : st.wrapLimit = none := by
  simp only [Settings.wrapLimit, h]

/-- Every shape but ONE_SHOT has a wrap limit, which its wrap source gives. -/
theorem Settings.wrapLimit_of_ne_oneShot {st : Settings} (h : st.shape ≠ .oneShot) :
    st.wrapLimit = some (match st.wrapSource with
      | .period => if st.period = 0 then 65536 else st.period.toNat
      | .action => st.action.toNat + 1) := by
  unfold Settings.wrapLimit
  cases hs : st.shape with
  | oneShot => exact absurd hs h
  | matching | wave | capture => cases st.wrapSource <;> rfl

theorem Settings.wrapLimit_spec (st : Settings) :
    (st.shape = .oneShot → st.wrapLimit = none) ∧
    (st.shape ≠ .oneShot → st.wrapSource = .action → st.wrapLimit = some (st.action.toNat + 1)) ∧
    (st.shape ≠ .oneShot → st.wrapSource = .period → st.period = 0 → st.wrapLimit = some 65536) ∧
    (st.shape ≠ .oneShot → st.wrapSource = .period → st.period ≠ 0 → st.wrapLimit = some st.period.toNat) := by
  refine ⟨wrapLimit_of_oneShot, fun hs hw => ?_, fun hs hw hp => ?_, fun hs hw hp => ?_⟩
  · simp only [wrapLimit_of_ne_oneShot hs, hw]
  · simp only [wrapLimit_of_ne_oneShot hs, hw, if_pos hp]
  · simp only [wrapLimit_of_ne_oneShot hs, hw, if_neg hp]

/-! ## Taking staged marks (R70) -/

theorem Settings.withMarks_spec (st : Settings) (m : Marks) :
    (m.period = none → (st.withMarks m).period = st.period) ∧ (∀ v, m.period = some v → (st.withMarks m).period = v) ∧
    (m.action = none → (st.withMarks m).action = st.action) ∧ (∀ v, m.action = some v → (st.withMarks m).action = v) ∧
    st.withMarks m = { st with period := (st.withMarks m).period, action := (st.withMarks m).action } := by
  refine ⟨?_, ?_, ?_, ?_, rfl⟩ <;> simp +contextual [Settings.withMarks]

theorem Channel.takeMarks_of_none {c : Channel} (h : c.staged = none) : c.takeMarks = c := by
  simp only [Channel.takeMarks, h]

theorem Channel.takeMarks_of_some {c : Channel} {m : Marks} {st : Settings} (hm : c.staged = some m)
    (hst : c.settings = some st) : c.takeMarks = { c with settings := some (st.withMarks m), staged := none } := by
  simp only [Channel.takeMarks, hm, hst]

/-! ## A clock event (R59 to R61) -/

/-- A wrap takes the staged marks and, beside the output, changes the counter and the wrap count alone. -/
theorem Channel.wrap_eq (c : Channel) :
    c.wrap = { c.takeMarks with counter := 0, wrapCount := c.wrapCount + 1, output := c.wrap.output } := by
  have wrapped := c.wrap_spec
  have marked := c.takeMarks_frame
  generalize c.wrap = w at *
  generalize c.takeMarks = t at *
  cases w
  simp_all

/-- An A-match changes the output and the channel state alone. -/
theorem Channel.aMatch_eq (c : Channel) (st : Settings) :
    c.aMatch st = { c with output := (c.aMatch st).output, mode := (c.aMatch st).mode } := by
  have matched := c.aMatch_frame st
  generalize c.aMatch st = d at *
  cases d
  simp_all

theorem Channel.advance_of_wrap {c : Channel} {st : Settings} (h : st.wrapLimit = some (c.counter.toNat + 1)) :
    c.advance st = (c.wrap, some .wrap) := by
  simp only [Channel.advance, if_pos h]

theorem Channel.advance_of_action {c : Channel} {st : Settings} (hw : st.wrapLimit ≠ some (c.counter.toNat + 1))
    (ha : c.counter.toNat + 1 = st.action.toNat) :
    c.advance st = (({ c with counter := st.action } : Channel).aMatch st, some .action) := by
  have next : BitVec.ofNat 16 (c.counter.toNat + 1) = st.action := by rw [ha, BitVec.ofNat_toNat, BitVec.setWidth_eq]
  simp only [Channel.advance, if_neg hw, if_pos ha, next]

theorem Channel.advance_of_no_event {c : Channel} {st : Settings} (hw : st.wrapLimit ≠ some (c.counter.toNat + 1))
    (ha : c.counter.toNat + 1 ≠ st.action.toNat) :
    c.advance st = ({ c with counter := c.counter + 1 }, none) := by
  have next : BitVec.ofNat 16 (c.counter.toNat + 1) = c.counter + 1 := BitVec.eq_of_toNat_eq (by simp)
  simp only [Channel.advance, if_neg hw, if_neg ha, next]

/-- Below the wrap limit, or below the action mark of a pulse, the counter has a next value. -/
theorem Channel.counter_succ_lt {c : Channel} {st : Settings} (hst : c.settings = some st) (range : c.countsInRange)
    (pulse : st.shape = .oneShot → c.mode = .pulsing) (hw : st.wrapLimit ≠ some (c.counter.toNat + 1)) :
    c.counter.toNat + 1 < 2 ^ 16 := by
  obtain ⟨belowLimit, oneShot⟩ := range st hst
  by_cases shape : st.shape = .oneShot
  · obtain ⟨-, -, belowAction⟩ := oneShot shape
    have below := belowAction (.inl (pulse shape))
    have := st.action.isLt
    omega
  · obtain ⟨l, hl⟩ : ∃ l, st.wrapLimit = some l := ⟨_, Settings.wrapLimit_of_ne_oneShot shape⟩
    have below := belowLimit l hl
    have limit := (Settings.wrapLimit_range hl).2
    have notNext : l ≠ c.counter.toNat + 1 := fun h => hw (h ▸ hl)
    omega

/-- What a clock event makes of a counter in its range: a wrap, an A-match, or the next value. -/
theorem Channel.advance_spec {c : Channel} {st : Settings} (hst : c.settings = some st) (range : c.countsInRange)
    (pulse : st.shape = .oneShot → c.mode = .pulsing) :
    (st.wrapLimit = some (c.counter.toNat + 1) →
      (c.advance st).2 = some .wrap ∧ (c.advance st).1.counter = 0 ∧
        (c.advance st).1.wrapCount = c.wrapCount + 1 ∧ (c.advance st).1.staged = none ∧
        (c.advance st).1 = { c.takeMarks with
          counter := 0, wrapCount := c.wrapCount + 1, output := (c.advance st).1.output }) ∧
    (st.wrapLimit ≠ some (c.counter.toNat + 1) → c.counter.toNat + 1 = st.action.toNat →
      (c.advance st).2 = some .action ∧ (c.advance st).1.counter = st.action ∧
        (c.advance st).1 = { c with
          counter := st.action, output := (c.advance st).1.output, mode := (c.advance st).1.mode }) ∧
    (st.wrapLimit ≠ some (c.counter.toNat + 1) → c.counter.toNat + 1 ≠ st.action.toNat →
      c.advance st = ({ c with counter := c.counter + 1 }, none) ∧
        (c.counter + 1).toNat = c.counter.toNat + 1) := by
  refine ⟨fun hw => ?_, fun hw ha => ?_, fun hw ha => ⟨advance_of_no_event hw ha, ?_⟩⟩
  · obtain ⟨counter, wrapCount, -, staged, -⟩ := c.wrap_spec
    rw [advance_of_wrap hw]
    exact ⟨rfl, counter, wrapCount, staged.trans (takeMarks_staged hst), c.wrap_eq⟩
  · obtain ⟨-, -, -, counter, -⟩ := ({ c with counter := st.action } : Channel).aMatch_frame st
    rw [advance_of_action hw ha]
    exact ⟨rfl, counter, aMatch_eq _ st⟩
  · exact BitVec.toNat_add_of_lt (counter_succ_lt hst range pulse hw)

/-- Settles O20: the clock, the clock event, the wrap limit and the staged marks, each by the rule of its function. -/
theorem clockEventAdvances : Obligations.ClockEventAdvances :=
  ⟨Channel.clock_spec, fun _ _ => Channel.advance_spec, Settings.wrapLimit_spec, Settings.withMarks_spec,
    fun _ => ⟨Channel.takeMarks_of_none, fun _ _ => Channel.takeMarks_of_some⟩⟩

end Sys2Proof.Machine
end

section
/-! PROOFS. The codes of CONTROL, the command result and the session number (sections 7.2 and 7.3): what each command does
to the two, once, and the settling of O10 and O11. -/

namespace Sys2Proof.Machine

/-! ## A command accepted or refused (R147, Table 7-3) -/

theorem State.command_of_allowed {s : State} {allowed : Bool} (f : State → State)
    (h : allowed = true ∧ s.eng.resetPending = false) : s.command allowed f = f (s.setResult .accepted) := by
  obtain ⟨ha, hp⟩ := h
  simp [State.command, ha, hp]

theorem State.command_of_not_allowed {s : State} {allowed : Bool} (f : State → State)
    (h : ¬ (allowed = true ∧ s.eng.resetPending = false)) : s.command allowed f = s.setResult .refused := by
  unfold State.command
  exact if_neg (by simpa using h)

theorem State.accepts_prepare_iff (s : State) :
    s.accepts .prepare ↔ s.betweenSessions = true ∧ s.eng.resetPending = false := by
  simp [State.accepts, State.betweenSessions, and_comm]

theorem State.accepts_startCommand_iff (s : State) :
    s.accepts .startCommand ↔ (s.eng.state == .armed) = true ∧ s.eng.resetPending = false := by
  simp [State.accepts, and_comm]

theorem State.accepts_stopCommand_iff (s : State) :
    s.accepts .stopCommand ↔ s.stopAllowed = true ∧ s.eng.resetPending = false := by
  simp [State.accepts, State.stopAllowed, and_comm]

theorem State.accepts_abort_iff (s : State) :
    s.accepts .abort ↔ s.abortAllowed = true ∧ s.eng.resetPending = false := by
  cases hs : s.eng.state <;> simp [State.accepts, State.abortAllowed, hs, and_comm]

/-! ## What the effects of CONTROL leave of Engine Control -/

@[simp] theorem State.result_beginPrepare (s : State) : s.beginPrepare.eng.result = s.eng.result := by
  simp only [State.beginPrepare]
  split <;> simp

@[simp] theorem State.session_beginPrepare (s : State) : s.beginPrepare.eng.session = nextSession s.eng.session := by
  simp only [State.beginPrepare]
  split <;> simp

theorem State.takeStop_keeps (s : State) :
    s.takeStop.eng.session = s.eng.session ∧ s.takeStop.eng.result = s.eng.result := by
  simp [State.takeStop]

theorem State.takeAbort_keeps (s : State) :
    s.takeAbort.eng.session = s.eng.session ∧ s.takeAbort.eng.result = s.eng.result := by
  unfold State.takeAbort
  split <;> simp

@[simp] theorem State.nudge_eng (s : State) : s.nudge.eng = s.eng := by
  unfold State.nudge
  (repeat' split) <;> simp

theorem State.nudge_of_resetPending {s : State} (h : s.eng.resetPending = true) : s.nudge = s := by
  simp [State.nudge, h]

theorem State.beginReset_keeps (s : State) :
    s.beginReset.eng.session = s.eng.session ∧ s.beginReset.eng.result = s.eng.result := by
  unfold State.beginReset
  split <;> simp [State.withdrawAll]

theorem State.beginReset_of_resetPending {s : State} (h : s.eng.resetPending = true) : s.beginReset = s := by
  simp [State.beginReset, h]

theorem State.session_command (s : State) (allowed : Bool) {f : State → State}
    (kept : ∀ u : State, (f u).eng.session = u.eng.session) : (s.command allowed f).eng.session = s.eng.session := by
  unfold State.command
  split
  · exact kept _
  · rfl

@[simp] theorem State.session_writeBase (s : State) (v : Word) : (s.writeBase v).eng.session = s.eng.session := by
  unfold State.writeBase
  split <;> rfl

/-- An engine reset keeps the session number (R166). -/
@[simp] theorem State.session_takeEngineReset (s : State) : s.takeEngineReset.eng.session = s.eng.session := by
  unfold State.takeEngineReset
  split <;> rfl

/-! ## What the other events leave of Engine Control -/

theorem State.takeInitialFetchComplete_keeps (s : State) :
    s.takeInitialFetchComplete.eng.session = s.eng.session ∧ s.takeInitialFetchComplete.eng.result = s.eng.result := by
  unfold State.takeInitialFetchComplete
  split <;> simp

theorem State.takeLoaderQuiet_keeps (s : State) :
    s.takeLoaderQuiet.eng.session = s.eng.session ∧ s.takeLoaderQuiet.eng.result = s.eng.result := by
  unfold State.takeLoaderQuiet
  split <;> simp

theorem State.takeEndMarkerPlace_keeps (s : State) :
    s.takeEndMarkerPlace.eng.session = s.eng.session ∧ s.takeEndMarkerPlace.eng.result = s.eng.result := by
  unfold State.takeEndMarkerPlace State.placeEndMarker
  (repeat' split) <;> simp

theorem State.takeSummary_keeps (s : State) :
    s.takeSummary.eng.session = s.eng.session ∧ s.takeSummary.eng.result = s.eng.result := by
  unfold State.takeSummary State.beginSummary
  split <;> simp

@[simp] theorem State.takeSlotTaking_eng (s : State) : s.takeSlotTaking.eng = s.eng := by
  unfold State.takeSlotTaking
  split <;> rfl

theorem State.takeCloseMarker_keeps (s : State) :
    s.takeCloseMarker.eng.session = s.eng.session ∧ s.takeCloseMarker.eng.result = s.eng.result := by
  unfold State.takeCloseMarker
  split <;> simp

theorem State.takeEndMarker_keeps (s : State) :
    s.takeEndMarker.eng.session = s.eng.session ∧ s.takeEndMarker.eng.result = s.eng.result := by
  unfold State.takeEndMarker
  split <;> simp

theorem State.takeDrainLimitExpiry_keeps (s : State) :
    s.takeDrainLimitExpiry.eng.session = s.eng.session ∧ s.takeDrainLimitExpiry.eng.result = s.eng.result := by
  unfold State.takeDrainLimitExpiry
  split <;> simp

@[simp] theorem State.takeQuietEnd_eng (s : State) (reading : Nat) : (s.takeQuietEnd reading).eng = s.eng := by
  unfold State.takeQuietEnd
  (repeat' split) <;> rfl

@[simp] theorem State.deviceResetEnd_eng (s : State) (reading : Nat) : (s.deviceResetEnd reading).eng = s.eng := by
  unfold State.deviceResetEnd
  split <;> rfl

/-- Of a tick's events only an engine reset that is due touches the command result (log 3). -/
theorem State.takeTick_keeps (s : State) :
    s.takeTick.eng.session = s.eng.session ∧ (s.eng.resetPending = false → s.takeTick.eng.result = s.eng.result) := by
  obtain ⟨session, result⟩ : s.takeTick.eng.session = s.takeEngineReset.eng.session ∧
      s.takeTick.eng.result = s.takeEngineReset.eng.result := by
    simp [State.takeTick, State.beginTick, State.finishTick]
  refine ⟨session.trans s.session_takeEngineReset, fun noReset => ?_⟩
  rw [result, State.takeEngineReset_of_not_due (.inl noReset)]

/-! ## What every command leaves of the session number and of the command result (R147, R148) -/

/-- An effect that keeps both keeps them too where a device reset holds it back. -/
theorem act_keeps_session_result {s t : State} {f : State → State} (run : act s f = .next t)
    (kept : (f s).eng.session = s.eng.session ∧ (f s).eng.result = s.eng.result) :
    t.eng.session = s.eng.session ∧ t.eng.result = s.eng.result := by
  rw [act_eq_next.mp run]
  split
  · exact ⟨rfl, rfl⟩
  · exact kept

/-- A command other than those of CONTROL, a write to BASE and the resets keeps both; so does a tick with no engine reset
to take. -/
theorem exec_keeps_session_result {c : Instr} {s t : State} (run : exec c s = .next t)
    (other : c ∉ [Instr.prepare, .startCommand, .stopCommand, .abort, .nudge, .reset, .deviceReset, .engineReset])
    (assigned : ∀ v, c ≠ .unknownCommand v) (notBase : ∀ v, c ≠ .baseWrite v)
    (noReset : c = .timebaseTick → s.eng.resetPending = false) :
    t.eng.session = s.eng.session ∧ t.eng.result = s.eng.result := by
  cases c with simp only [exec] at run
  | prepare | startCommand | stopCommand | abort | nudge | reset | deviceReset | engineReset => simp at other
  | unknownCommand v => exact absurd rfl (assigned v)
  | baseWrite v => exact absurd rfl (notBase v)
  | timebaseTick =>
    exact act_keeps_session_result run ⟨s.takeTick_keeps.1, s.takeTick_keeps.2 (noReset rfl)⟩
  | alertWrite | alertEnableWrite | timeLoRead | ignoredRegisterWrite | busAccept | recordOffer =>
    exact act_keeps_session_result run ⟨rfl, rfl⟩
  | set | start | stop | pause | resume | stage | fire | snapshot | powerOn | powerOff | reference | convert | note
  | closePage | endCue | expiry | laneHeadOffer | timebaseEnd | scanEvent | fireLinkDelivery | convertLinkRequest
  | warmUpEnd | settlingEnd | conversionEnd | deadlineExpiry | requestPresent | grant | response | timeout
  | quietIntervalEnd | slotTaking =>
    exact act_keeps_session_result run (by simp)
  | startLineEdge | tickArrival => simpa using act_keeps_session_result run (by simp)
  | initialFetchComplete => exact act_keeps_session_result run s.takeInitialFetchComplete_keeps
  | closeMarkerReached => exact act_keeps_session_result run s.takeCloseMarker_keeps
  | endMarkerReached => exact act_keeps_session_result run s.takeEndMarker_keeps
  | drainLimitExpiry => exact act_keeps_session_result run s.takeDrainLimitExpiry_keeps
  | loaderQuiet => exact act_keeps_session_result run s.takeLoaderQuiet_keeps
  | endMarkerPlace => exact act_keeps_session_result run s.takeEndMarkerPlace_keeps
  | endSummaryWrite => exact act_keeps_session_result run s.takeSummary_keeps
  | deviceResetEnd reading =>
    cases run
    simp

theorem session_eq_of_exec {c : Instr} {s t u : State} (run : exec c s = .next t) (effect : exec c s = .next u)
    (kept : u.eng.session = s.eng.session) : t.eng.session = s.eng.session := by
  cases effect.symm.trans run
  exact kept

/-- No command but PREPARE and a device reset changes the session number (R148). -/
theorem exec_keeps_session {c : Instr} {s t : State} (run : exec c s = .next t) (free : s.free) (prepare : c ≠ .prepare)
    (deviceReset : c ≠ .deviceReset) : t.eng.session = s.eng.session := by
  cases c with
  | prepare => exact absurd rfl prepare
  | deviceReset => exact absurd rfl deviceReset
  | startCommand =>
    exact session_eq_of_exec run (exec_startCommand s free) (s.session_command _ fun u => u.startSession_frame.2.1)
  | stopCommand =>
    exact session_eq_of_exec run (exec_stopCommand s free) (s.session_command _ fun u => u.takeStop_keeps.1)
  | abort =>
    exact session_eq_of_exec run (exec_abort s free) (s.session_command _ fun u => u.takeAbort_keeps.1)
  | nudge => exact session_eq_of_exec run (exec_nudge s free) (by simp)
  | reset => exact session_eq_of_exec run (exec_reset s free) (s.setResult .accepted).beginReset_keeps.1
  | unknownCommand code => exact session_eq_of_exec run (exec_unknownCommand code s free) (by split <;> rfl)
  | baseWrite v => exact session_eq_of_exec run (exec_baseWrite v s free) (s.session_writeBase v)
  | engineReset => exact session_eq_of_exec run (exec_engineReset s free) s.session_takeEngineReset
  | timebaseTick => exact session_eq_of_exec run (exec_timebaseTick s free) s.takeTick_keeps.1
  | _ => exact (exec_keeps_session_result run (by simp) (by simp) (by simp) (by simp)).1

/-! ## What a command of CONTROL answers (R147) -/

theorem exec_prepare_of_accepts {s : State} (free : s.free) (h : s.accepts .prepare) :
    exec .prepare s = .next (s.setResult .accepted).beginPrepare := by
  rw [exec_prepare s free, State.command_of_allowed _ (s.accepts_prepare_iff.mp h)]

theorem exec_prepare_of_not_accepts {s : State} (free : s.free) (h : ¬ s.accepts .prepare) :
    exec .prepare s = .next (s.setResult .refused) := by
  rw [exec_prepare s free, State.command_of_not_allowed _ (mt s.accepts_prepare_iff.mpr h)]

/-- What Table 7-3 says of the answer to command `c` in `s`: ACCEPTED, or REFUSED with nothing else changed. -/
def State.answersCommand (s : State) (c : Instr) : Prop :=
  (s.accepts c → ∃ t, exec c s = .next t ∧ t.eng.result = .accepted) ∧
    (¬ s.accepts c → exec c s = .next (s.setResult .refused))

theorem State.answersCommand_of_command {s : State} {c : Instr} {allowed : Bool} {f : State → State}
    (run : exec c s = .next (s.command allowed f)) (accepts : s.accepts c ↔ allowed = true ∧ s.eng.resetPending = false)
    (kept : ∀ u : State, (f u).eng.result = u.eng.result) : s.answersCommand c := by
  refine ⟨fun yes => ⟨_, run, ?_⟩, fun no => ?_⟩
  · rw [State.command_of_allowed f (accepts.mp yes), kept, State.result_setResult]
  · rw [run, State.command_of_not_allowed f (mt accepts.mpr no)]

/-- A command that every state accepts. -/
theorem State.answersCommand_of_always {s u : State} {c : Instr} (accepts : s.accepts c) (run : exec c s = .next u)
    (result : u.eng.result = .accepted) : s.answersCommand c :=
  ⟨fun _ => ⟨u, run, result⟩, fun no => absurd accepts no⟩

/-- Each command of CONTROL by the row of Table 7-3 that it has. -/
theorem State.answersCommand_of_control {s : State} {c : Instr} (free : s.free)
    (control : c ∈ [Instr.prepare, .startCommand, .stopCommand, .abort, .nudge, .reset]) : s.answersCommand c := by
  simp only [List.mem_cons, List.not_mem_nil, or_false] at control
  rcases control with rfl | rfl | rfl | rfl | rfl | rfl
  · exact answersCommand_of_command (exec_prepare s free) s.accepts_prepare_iff result_beginPrepare
  · exact answersCommand_of_command (exec_startCommand s free) s.accepts_startCommand_iff
      fun u => u.startSession_frame.2.2.1
  · exact answersCommand_of_command (exec_stopCommand s free) s.accepts_stopCommand_iff fun u => u.takeStop_keeps.2
  · exact answersCommand_of_command (exec_abort s free) s.accepts_abort_iff fun u => u.takeAbort_keeps.2
  · exact answersCommand_of_always trivial (exec_nudge s free) (by simp)
  · exact answersCommand_of_always trivial (exec_reset s free) (s.setResult .accepted).beginReset_keeps.2

theorem exec_unknownCommand_of_unassigned {s : State} {code : Word} (free : s.free)
    (h : code = 0 ∨ 6 < code.toNat) : exec (.unknownCommand code) s = .next (s.setResult .unknown) := by
  have unassigned : unassignedCode code = true := by
    rcases h with rfl | h
    · rfl
    · simp [unassignedCode, h]
  rw [exec_unknownCommand code s free, if_pos unassigned]

/-- A NUDGE or a RESET while an engine reset is pending has no effect of its own (R165, R166). -/
theorem exec_of_resetPending {s : State} {c : Instr} (free : s.free) (pending : s.eng.resetPending = true)
    (h : c = .nudge ∨ c = .reset) : exec c s = .next (s.setResult .accepted) := by
  rcases h with rfl | rfl
  · rw [exec_nudge s free, State.nudge_of_resetPending (s := s.setResult .accepted) pending]
  · rw [exec_reset s free, State.beginReset_of_resetPending (s := s.setResult .accepted) pending]

/-- The codes above 6, and 0, name no command (section 9.1). -/
theorem controlCommand_of_unassigned {code : Word} (h : code = 0 ∨ 6 < code.toNat) :
    controlCommand code = .unknownCommand code := by
  rcases h with rfl | above
  · rfl
  · obtain ⟨n, hn⟩ : ∃ n, code.toNat = n + 7 := ⟨code.toNat - 7, by omega⟩
    simp only [controlCommand, hn]

/-- Settles O10: the answers of CONTROL by the rows of Table 7-3, and the command result that every other command keeps. -/
theorem commandAcceptance : Obligations.CommandAcceptance :=
  ⟨fun _ _ free control => State.answersCommand_of_control free control,
    fun _ _ free => exec_unknownCommand_of_unassigned free,
    fun _ _ free pending => exec_of_resetPending free pending,
    fun _ _ _ run other assigned notBase noReset => (exec_keeps_session_result run other assigned notBase noReset).2,
    rfl, rfl, rfl, rfl, rfl, rfl, fun _ => controlCommand_of_unassigned⟩

/-! ## The session number: how it rises, and where it stands (R148) -/

theorem nextSession_of_max {n : Half} (h : n.toNat = 65535) : nextSession n = 1 :=
  if_pos (BitVec.eq_of_toNat_eq h)

theorem toNat_nextSession_of_ne_max {n : Half} (h : n.toNat ≠ 65535) : (nextSession n).toNat = n.toNat + 1 := by
  have notMax : n ≠ BitVec.allOnes 16 := fun max => h (by rw [max]; rfl)
  have below := n.isLt
  rw [nextSession, if_neg notMax]
  exact BitVec.toNat_add_of_lt (by simp; omega)

theorem take_pageHeaderBytes_session (n : Half) (p : Page) (c : Closing) : (pageHeaderBytes n p c).take 2 = le 2 n := by
  simp only [pageHeaderBytes, List.append_assoc]
  exact List.take_left' (length_le 2 n)

theorem summaryBytes_session (s : State) : ((summaryBytes s).drop 2).take 2 = le 2 s.eng.session := by
  simp only [summaryBytes, List.append_assoc]
  exact List.take_left' (length_le 2 _)

/-- The header write of a close, presented for the page it closes, begins with the session number (R137). -/
theorem State.writerWants_header {s : State} {p : Page} {c : Closing} (page : s.wr.page = some p)
    (task : s.wr.task = .header c) :
    ∃ rq, s.writerWants = some (rq, .header c) ∧ rq.addr = p.address ∧ rq.data.take 2 = le 2 s.eng.session := by
  refine ⟨{ addr := p.address, len := 32, write := true, data := pageHeaderBytes s.eng.session p c }, ?_, rfl,
    take_pageHeaderBytes_session _ _ _⟩
  simp only [State.writerWants, task, page, Option.map_some]

theorem exec_prepare_session {s t : State} (run : exec .prepare s = .next t) (free : s.free) (h : s.accepts .prepare) :
    t.eng.session = nextSession s.eng.session := by
  cases (exec_prepare_of_accepts free h).symm.trans run
  simp

theorem exec_session_of_not_prepared {c : Instr} {s t : State} (run : exec c s = .next t) (free : s.free)
    (deviceReset : c ≠ .deviceReset) (h : ¬ (c = .prepare ∧ s.accepts .prepare)) : t.eng.session = s.eng.session := by
  by_cases prepare : c = .prepare
  · subst prepare
    cases (exec_prepare_of_not_accepts free fun yes => h ⟨rfl, yes⟩).symm.trans run
    rfl
  · exact exec_keeps_session run free prepare deviceReset

/-- Settles O11: the formats of the page header and the end summary, and the one command that raises the number. -/
theorem sessionNumber : Obligations.SessionNumber := by
  refine ⟨fun _ _ _ => State.writerWants_header, summaryBytes_session, fun c s t run free =>
    ⟨?deviceReset, ?last, ?next, fun notReset => exec_session_of_not_prepared run free notReset⟩⟩
  case deviceReset =>
    rintro rfl
    cases run
    rfl
  case last =>
    rintro ⟨rfl, accepted⟩ max
    rw [exec_prepare_session run free accepted, nextSession_of_max max]
  case next =>
    rintro ⟨rfl, accepted⟩ notMax
    rw [exec_prepare_session run free accepted, toNat_nextSession_of_ne_max notMax]

end Sys2Proof.Machine
end

section
/-! PROOFS. What a command keeps, and the request path (R171): an effect that keeps a property keeps it where a device
reset holds it back too; every command keeps the path with a requester whose transaction is outstanding. -/

namespace Sys2Proof.Machine

/-! ## What a command keeps -/

theorem act_keeps {P : State → Prop} {s t : State} {f : State → State} (run : act s f = .next t) (held : P s)
    (effect : P (f s)) : P t := by
  rw [act_eq_next.mp run]
  split
  · exact held
  · exact effect

/-- A cue verb's row is the expiry of the earliest entry, or nothing (assumption log 4). -/
theorem State.takeCue_keeps {P : State → Prop} {s : State} (kept : P s) (expiry : P s.takeExpiry) (p : Action → Bool) :
    P (s.takeCue p) := by
  unfold State.takeCue
  (repeat' split) <;> assumption

theorem State.command_keeps {P : State → Prop} {s : State} {allowed : Bool} {f : State → State}
    (kept : ∀ r, P (s.setResult r)) (effect : allowed = true → s.eng.resetPending = false → P (f (s.setResult .accepted))) :
    P (s.command allowed f) := by
  unfold State.command
  split
  · next h =>
    simp only [Bool.and_eq_true, Bool.not_eq_true'] at h
    exact effect h.1 h.2
  · exact kept _

/-- A step keeps what every command keeps, where the queue of commands is not looked at. -/
theorem step_keeps {P : State → Prop} (queue : ∀ (s : State) (q : List Instr), P s → P { s with pending := q })
    (command : ∀ (c : Instr) (s t : State), P s → exec c s = .next t → P t) {s t : State} (kept : P s)
    (run : step s = .next t) : P t := by
  unfold step at run
  split at run
  · cases run
    exact kept
  · exact command _ _ _ (queue _ _ kept) run

/-! ## What the effects of the events leave -/

theorem State.eng_setResult (s : State) (r : CommandResult) : (s.setResult r).eng = { s.eng with result := r } := rfl

@[simp] theorem State.takeInitialFetchComplete_frame (s : State) :
    s.takeInitialFetchComplete.pending = s.pending ∧ s.takeInitialFetchComplete.eng.windDown = s.eng.windDown ∧ s.takeInitialFetchComplete.eng.session = s.eng.session ∧
      s.takeInitialFetchComplete.eng.cba = s.eng.cba ∧ s.takeInitialFetchComplete.eng.result = s.eng.result ∧ s.takeInitialFetchComplete.eng.prepError = s.eng.prepError ∧
      s.takeInitialFetchComplete.eng.endCause = s.eng.endCause ∧ s.takeInitialFetchComplete.eng.faultCode = s.eng.faultCode ∧ s.takeInitialFetchComplete.eng.faultAddr = s.eng.faultAddr ∧
      s.takeInitialFetchComplete.eng.secondary = s.eng.secondary ∧ s.takeInitialFetchComplete.eng.resetPending = s.eng.resetPending ∧ s.takeInitialFetchComplete.eng.lastStart = s.eng.lastStart ∧
      s.takeInitialFetchComplete.eng.checked = s.eng.checked ∧ s.takeInitialFetchComplete.eng.aborting = s.eng.aborting ∧ s.takeInitialFetchComplete.eng.task = s.eng.task ∧
      s.takeInitialFetchComplete.eng.staleRead = s.eng.staleRead ∧ s.takeInitialFetchComplete.eng.converterIdle = s.eng.converterIdle ∧ s.takeInitialFetchComplete.eng.loaderQuiet = s.eng.loaderQuiet ∧
      s.takeInitialFetchComplete.eng.pathComplete = s.eng.pathComplete ∧ s.takeInitialFetchComplete.eng.markerPlaced = s.eng.markerPlaced ∧ s.takeInitialFetchComplete.params = s.params ∧
      s.takeInitialFetchComplete.cal = s.cal ∧ s.takeInitialFetchComplete.loader = s.loader ∧ s.takeInitialFetchComplete.chans = s.chans ∧
      s.takeInitialFetchComplete.links = s.links ∧ s.takeInitialFetchComplete.conv = s.conv ∧ s.takeInitialFetchComplete.wr = s.wr ∧
      s.takeInitialFetchComplete.port = s.port ∧ s.takeInitialFetchComplete.win = s.win ∧ s.takeInitialFetchComplete.pins = s.pins := by
  unfold State.takeInitialFetchComplete
  (repeat' split) <;> simp

@[simp] theorem State.takeSlotTaking_frame (s : State) :
    s.takeSlotTaking.pending = s.pending ∧ s.takeSlotTaking.eng = s.eng ∧ s.takeSlotTaking.tb = s.tb ∧
      s.takeSlotTaking.params = s.params ∧ s.takeSlotTaking.cal = s.cal ∧ s.takeSlotTaking.loader = s.loader ∧
      s.takeSlotTaking.chans = s.chans ∧ s.takeSlotTaking.links = s.links ∧ s.takeSlotTaking.conv = s.conv ∧
      s.takeSlotTaking.port = s.port ∧ s.takeSlotTaking.win = s.win ∧ s.takeSlotTaking.pins = s.pins := by
  unfold State.takeSlotTaking
  (repeat' split) <;> simp

@[simp] theorem State.takeLoaderQuiet_frame (s : State) :
    s.takeLoaderQuiet.pending = s.pending ∧ s.takeLoaderQuiet.eng.state = s.eng.state ∧ s.takeLoaderQuiet.eng.windDown = s.eng.windDown ∧
      s.takeLoaderQuiet.eng.session = s.eng.session ∧ s.takeLoaderQuiet.eng.cba = s.eng.cba ∧ s.takeLoaderQuiet.eng.result = s.eng.result ∧
      s.takeLoaderQuiet.eng.prepError = s.eng.prepError ∧ s.takeLoaderQuiet.eng.endCause = s.eng.endCause ∧ s.takeLoaderQuiet.eng.faultCode = s.eng.faultCode ∧
      s.takeLoaderQuiet.eng.faultAddr = s.eng.faultAddr ∧ s.takeLoaderQuiet.eng.secondary = s.eng.secondary ∧ s.takeLoaderQuiet.eng.resetPending = s.eng.resetPending ∧
      s.takeLoaderQuiet.eng.lastStart = s.eng.lastStart ∧ s.takeLoaderQuiet.eng.checked = s.eng.checked ∧ s.takeLoaderQuiet.eng.aborting = s.eng.aborting ∧
      s.takeLoaderQuiet.eng.task = s.eng.task ∧ s.takeLoaderQuiet.eng.staleRead = s.eng.staleRead ∧ s.takeLoaderQuiet.eng.converterIdle = s.eng.converterIdle ∧
      s.takeLoaderQuiet.eng.pathComplete = s.eng.pathComplete ∧ s.takeLoaderQuiet.eng.markerPlaced = s.eng.markerPlaced ∧ s.takeLoaderQuiet.tb = s.tb ∧
      s.takeLoaderQuiet.params = s.params ∧ s.takeLoaderQuiet.cal = s.cal ∧ s.takeLoaderQuiet.loader = s.loader ∧
      s.takeLoaderQuiet.chans = s.chans ∧ s.takeLoaderQuiet.links = s.links ∧ s.takeLoaderQuiet.conv = s.conv ∧
      s.takeLoaderQuiet.wr = s.wr ∧ s.takeLoaderQuiet.port = s.port ∧ s.takeLoaderQuiet.win = s.win ∧
      s.takeLoaderQuiet.pins = s.pins := by
  unfold State.takeLoaderQuiet
  (repeat' split) <;> simp

@[simp] theorem State.takeSummary_frame (s : State) :
    s.takeSummary.pending = s.pending ∧ s.takeSummary.eng.state = s.eng.state ∧ s.takeSummary.eng.windDown = s.eng.windDown ∧
      s.takeSummary.eng.session = s.eng.session ∧ s.takeSummary.eng.cba = s.eng.cba ∧ s.takeSummary.eng.result = s.eng.result ∧
      s.takeSummary.eng.prepError = s.eng.prepError ∧ s.takeSummary.eng.endCause = s.eng.endCause ∧ s.takeSummary.eng.faultCode = s.eng.faultCode ∧
      s.takeSummary.eng.faultAddr = s.eng.faultAddr ∧ s.takeSummary.eng.secondary = s.eng.secondary ∧ s.takeSummary.eng.resetPending = s.eng.resetPending ∧
      s.takeSummary.eng.lastStart = s.eng.lastStart ∧ s.takeSummary.eng.checked = s.eng.checked ∧ s.takeSummary.eng.aborting = s.eng.aborting ∧
      s.takeSummary.eng.staleRead = s.eng.staleRead ∧ s.takeSummary.eng.converterIdle = s.eng.converterIdle ∧ s.takeSummary.eng.loaderQuiet = s.eng.loaderQuiet ∧
      s.takeSummary.eng.pathComplete = s.eng.pathComplete ∧ s.takeSummary.eng.markerPlaced = s.eng.markerPlaced ∧ s.takeSummary.params = s.params ∧
      s.takeSummary.cal = s.cal ∧ s.takeSummary.loader = s.loader ∧ s.takeSummary.chans = s.chans ∧
      s.takeSummary.links = s.links ∧ s.takeSummary.conv = s.conv ∧ s.takeSummary.wr = s.wr ∧
      s.takeSummary.port = s.port ∧ s.takeSummary.win = s.win ∧ s.takeSummary.pins = s.pins := by
  unfold State.takeSummary State.beginSummary
  (repeat' split) <;> simp

@[simp] theorem State.takeCloseMarker_frame (s : State) :
    s.takeCloseMarker.pending = s.pending ∧ s.takeCloseMarker.eng.session = s.eng.session ∧ s.takeCloseMarker.eng.result = s.eng.result ∧
      s.takeCloseMarker.eng.cba = s.eng.cba ∧ s.takeCloseMarker.eng.resetPending = s.eng.resetPending ∧ s.takeCloseMarker.eng.lastStart = s.eng.lastStart ∧
      s.takeCloseMarker.tb = s.tb ∧ s.takeCloseMarker.params = s.params ∧ s.takeCloseMarker.cal = s.cal ∧
      s.takeCloseMarker.loader = s.loader ∧ s.takeCloseMarker.chans = s.chans ∧ s.takeCloseMarker.links = s.links ∧
      s.takeCloseMarker.conv = s.conv ∧ s.takeCloseMarker.port = s.port ∧ s.takeCloseMarker.win = s.win ∧
      s.takeCloseMarker.pins = s.pins := by
  unfold State.takeCloseMarker
  (repeat' split) <;> simp

@[simp] theorem State.takeEndMarker_frame (s : State) :
    s.takeEndMarker.pending = s.pending ∧ s.takeEndMarker.eng.session = s.eng.session ∧ s.takeEndMarker.eng.result = s.eng.result ∧
      s.takeEndMarker.eng.cba = s.eng.cba ∧ s.takeEndMarker.eng.resetPending = s.eng.resetPending ∧ s.takeEndMarker.eng.lastStart = s.eng.lastStart ∧
      s.takeEndMarker.tb = s.tb ∧ s.takeEndMarker.params = s.params ∧ s.takeEndMarker.cal = s.cal ∧
      s.takeEndMarker.loader = s.loader ∧ s.takeEndMarker.chans = s.chans ∧ s.takeEndMarker.links = s.links ∧
      s.takeEndMarker.conv = s.conv ∧ s.takeEndMarker.port = s.port ∧ s.takeEndMarker.win = s.win ∧
      s.takeEndMarker.pins = s.pins := by
  unfold State.takeEndMarker
  (repeat' split) <;> simp

@[simp] theorem State.takeDrainLimitExpiry_frame (s : State) :
    s.takeDrainLimitExpiry.pending = s.pending ∧ s.takeDrainLimitExpiry.eng.session = s.eng.session ∧ s.takeDrainLimitExpiry.eng.result = s.eng.result ∧
      s.takeDrainLimitExpiry.eng.cba = s.eng.cba ∧ s.takeDrainLimitExpiry.eng.resetPending = s.eng.resetPending ∧ s.takeDrainLimitExpiry.eng.lastStart = s.eng.lastStart ∧
      s.takeDrainLimitExpiry.tb = s.tb ∧ s.takeDrainLimitExpiry.params = s.params ∧ s.takeDrainLimitExpiry.cal = s.cal ∧
      s.takeDrainLimitExpiry.loader = s.loader ∧ s.takeDrainLimitExpiry.chans = s.chans ∧ s.takeDrainLimitExpiry.links = s.links ∧
      s.takeDrainLimitExpiry.conv = s.conv ∧ s.takeDrainLimitExpiry.port = s.port ∧ s.takeDrainLimitExpiry.win = s.win ∧
      s.takeDrainLimitExpiry.pins = s.pins := by
  unfold State.takeDrainLimitExpiry
  (repeat' split) <;> simp

@[simp] theorem State.takeEndMarkerPlace_frame (s : State) :
    s.takeEndMarkerPlace.pending = s.pending ∧ s.takeEndMarkerPlace.eng.state = s.eng.state ∧ s.takeEndMarkerPlace.eng.windDown = s.eng.windDown ∧
      s.takeEndMarkerPlace.eng.session = s.eng.session ∧ s.takeEndMarkerPlace.eng.cba = s.eng.cba ∧ s.takeEndMarkerPlace.eng.result = s.eng.result ∧
      s.takeEndMarkerPlace.eng.prepError = s.eng.prepError ∧ s.takeEndMarkerPlace.eng.endCause = s.eng.endCause ∧ s.takeEndMarkerPlace.eng.faultCode = s.eng.faultCode ∧
      s.takeEndMarkerPlace.eng.faultAddr = s.eng.faultAddr ∧ s.takeEndMarkerPlace.eng.secondary = s.eng.secondary ∧ s.takeEndMarkerPlace.eng.resetPending = s.eng.resetPending ∧
      s.takeEndMarkerPlace.eng.lastStart = s.eng.lastStart ∧ s.takeEndMarkerPlace.eng.checked = s.eng.checked ∧ s.takeEndMarkerPlace.eng.aborting = s.eng.aborting ∧
      s.takeEndMarkerPlace.eng.task = s.eng.task ∧ s.takeEndMarkerPlace.eng.staleRead = s.eng.staleRead ∧ s.takeEndMarkerPlace.eng.converterIdle = s.eng.converterIdle ∧
      s.takeEndMarkerPlace.eng.loaderQuiet = s.eng.loaderQuiet ∧ s.takeEndMarkerPlace.tb = s.tb ∧ s.takeEndMarkerPlace.params = s.params ∧
      s.takeEndMarkerPlace.cal = s.cal ∧ s.takeEndMarkerPlace.loader = s.loader ∧ s.takeEndMarkerPlace.chans = s.chans ∧
      s.takeEndMarkerPlace.links = s.links ∧ s.takeEndMarkerPlace.conv = s.conv ∧ s.takeEndMarkerPlace.port = s.port ∧
      s.takeEndMarkerPlace.win = s.win ∧ s.takeEndMarkerPlace.pins = s.pins := by
  unfold State.takeEndMarkerPlace State.placeEndMarker
  (repeat' split) <;> simp

@[simp] theorem State.writeBase_frame (s : State) (v : Word) :
    (s.writeBase v).pending = s.pending ∧ (s.writeBase v).eng.state = s.eng.state ∧ (s.writeBase v).eng.windDown = s.eng.windDown ∧
      (s.writeBase v).eng.session = s.eng.session ∧ (s.writeBase v).eng.cba = s.eng.cba ∧ (s.writeBase v).eng.prepError = s.eng.prepError ∧
      (s.writeBase v).eng.endCause = s.eng.endCause ∧ (s.writeBase v).eng.faultCode = s.eng.faultCode ∧ (s.writeBase v).eng.faultAddr = s.eng.faultAddr ∧
      (s.writeBase v).eng.secondary = s.eng.secondary ∧ (s.writeBase v).eng.resetPending = s.eng.resetPending ∧ (s.writeBase v).eng.lastStart = s.eng.lastStart ∧
      (s.writeBase v).eng.checked = s.eng.checked ∧ (s.writeBase v).eng.aborting = s.eng.aborting ∧ (s.writeBase v).eng.task = s.eng.task ∧
      (s.writeBase v).eng.staleRead = s.eng.staleRead ∧ (s.writeBase v).eng.converterIdle = s.eng.converterIdle ∧ (s.writeBase v).eng.loaderQuiet = s.eng.loaderQuiet ∧
      (s.writeBase v).eng.pathComplete = s.eng.pathComplete ∧ (s.writeBase v).eng.markerPlaced = s.eng.markerPlaced ∧ (s.writeBase v).tb = s.tb ∧
      (s.writeBase v).params = s.params ∧ (s.writeBase v).cal = s.cal ∧ (s.writeBase v).loader = s.loader ∧
      (s.writeBase v).chans = s.chans ∧ (s.writeBase v).links = s.links ∧ (s.writeBase v).conv = s.conv ∧
      (s.writeBase v).wr = s.wr ∧ (s.writeBase v).port = s.port ∧ (s.writeBase v).pins = s.pins := by
  unfold State.writeBase
  split <;> simp [State.eng_setResult]

@[simp] theorem State.nudge_frame (s : State) :
    s.nudge.pending = s.pending ∧ s.nudge.eng = s.eng ∧ s.nudge.tb = s.tb ∧
      s.nudge.params = s.params ∧ s.nudge.cal = s.cal ∧ s.nudge.chans = s.chans ∧
      s.nudge.links = s.links ∧ s.nudge.conv = s.conv ∧ s.nudge.port = s.port ∧
      s.nudge.win = s.win ∧ s.nudge.pins = s.pins := by
  unfold State.nudge
  (repeat' split) <;> simp

@[simp] theorem State.takeQuietEnd_frame (s : State) (reading : Nat) :
    (s.takeQuietEnd reading).pending = s.pending ∧ (s.takeQuietEnd reading).eng = s.eng ∧ (s.takeQuietEnd reading).tb = s.tb ∧
      (s.takeQuietEnd reading).params = s.params ∧ (s.takeQuietEnd reading).cal = s.cal ∧ (s.takeQuietEnd reading).loader = s.loader ∧
      (s.takeQuietEnd reading).chans = s.chans ∧ (s.takeQuietEnd reading).links = s.links ∧ (s.takeQuietEnd reading).conv = s.conv ∧
      (s.takeQuietEnd reading).wr = s.wr ∧ (s.takeQuietEnd reading).win = s.win := by
  unfold State.takeQuietEnd
  (repeat' split) <;> simp

@[simp] theorem State.deviceResetEnd_frame (s : State) (reading : Nat) :
    (s.deviceResetEnd reading).pending = s.pending ∧ (s.deviceResetEnd reading).eng = s.eng ∧ (s.deviceResetEnd reading).tb = s.tb ∧
      (s.deviceResetEnd reading).params = s.params ∧ (s.deviceResetEnd reading).cal = s.cal ∧ (s.deviceResetEnd reading).loader = s.loader ∧
      (s.deviceResetEnd reading).chans = s.chans ∧ (s.deviceResetEnd reading).links = s.links ∧ (s.deviceResetEnd reading).conv = s.conv ∧
      (s.deviceResetEnd reading).wr = s.wr ∧ (s.deviceResetEnd reading).win = s.win := by
  unfold State.deviceResetEnd
  (repeat' split) <;> simp

@[simp] theorem State.beginReset_frame (s : State) :
    s.beginReset.pending = s.pending ∧ s.beginReset.eng.state = s.eng.state ∧ s.beginReset.eng.windDown = s.eng.windDown ∧
      s.beginReset.eng.session = s.eng.session ∧ s.beginReset.eng.cba = s.eng.cba ∧ s.beginReset.eng.result = s.eng.result ∧
      s.beginReset.eng.prepError = s.eng.prepError ∧ s.beginReset.eng.endCause = s.eng.endCause ∧ s.beginReset.eng.faultCode = s.eng.faultCode ∧
      s.beginReset.eng.faultAddr = s.eng.faultAddr ∧ s.beginReset.eng.secondary = s.eng.secondary ∧ s.beginReset.eng.lastStart = s.eng.lastStart ∧
      s.beginReset.eng.checked = s.eng.checked ∧ s.beginReset.eng.aborting = s.eng.aborting ∧ s.beginReset.eng.task = s.eng.task ∧
      s.beginReset.eng.converterIdle = s.eng.converterIdle ∧ s.beginReset.eng.loaderQuiet = s.eng.loaderQuiet ∧ s.beginReset.eng.pathComplete = s.eng.pathComplete ∧
      s.beginReset.eng.markerPlaced = s.eng.markerPlaced ∧ s.beginReset.tb = s.tb ∧ s.beginReset.params = s.params ∧
      s.beginReset.cal = s.cal ∧ s.beginReset.chans = s.chans ∧ s.beginReset.links = s.links ∧
      s.beginReset.conv = s.conv ∧ s.beginReset.wr = s.wr ∧ s.beginReset.win = s.win ∧
      s.beginReset.pins = s.pins := by
  unfold State.beginReset State.withdrawAll
  (repeat' split) <;> simp

@[simp] theorem State.takeStop_frame (s : State) :
    s.takeStop.pending = s.pending ∧ s.takeStop.eng.session = s.eng.session ∧ s.takeStop.eng.result = s.eng.result ∧
      s.takeStop.eng.cba = s.eng.cba ∧ s.takeStop.eng.resetPending = s.eng.resetPending ∧ s.takeStop.eng.lastStart = s.eng.lastStart ∧
      s.takeStop.tb = s.tb ∧ s.takeStop.params = s.params ∧ s.takeStop.links = s.links ∧
      s.takeStop.port = s.port ∧ s.takeStop.win = s.win ∧ s.takeStop.pins = s.pins := by
  simp [State.takeStop]

@[simp] theorem State.takeTick_frame (s : State) :
    s.takeTick.pending = s.pending := by
  unfold State.takeTick State.beginTick State.finishTick State.takeEngineReset
  split <;> simp [State.engineReset]

/-! ## The requests at the port -/

/-- A port whose path is as it was or free, and that ends no transaction, keeps its path held. -/
def Port.keepsPath (p q : Port) : Prop :=
  (q.path = p.path ∨ q.path = none) ∧ ∀ r, (p.request r).isOutstanding = true → (q.request r).isOutstanding = true

theorem Port.keepsPath_refl (p : Port) : p.keepsPath p := ⟨.inl rfl, fun _ h => h⟩

theorem Port.keepsPath_trans {p q u : Port} (first : p.keepsPath q) (second : q.keepsPath u) : p.keepsPath u := by
  obtain ⟨hpath, hout⟩ := first
  obtain ⟨hpath', hout'⟩ := second
  refine ⟨?_, fun r h => hout' r (hout r h)⟩
  rcases hpath' with h | h
  · rw [h]; exact hpath
  · exact .inr h

theorem State.pathHeld_of_keepsPath {s t : State} (kept : s.port.keepsPath t.port) (h : s.pathHeld) : t.pathHeld := by
  intro r hr
  obtain ⟨hpath | hfree, hout⟩ := kept
  · exact hout r (h r (hpath ▸ hr))
  · rw [hfree] at hr; cases hr

theorem Port.keepsPath_withdrawn (p : Port) :
    p.keepsPath { p with loader := p.loader.withdrawn, writer := p.writer.withdrawn } ∧
      p.keepsPath { p with loader := p.loader.withdrawn } := by
  constructor <;> refine ⟨.inl rfl, fun r h => ?_⟩ <;> cases r <;> simpa [Port.request] using h

/-! ## What the effects leave of the port -/

theorem State.withdrawWriter_keepsPath (s : State) : s.port.keepsPath s.withdrawWriter.port := by
  unfold State.withdrawWriter
  split
  · next h =>
    refine ⟨.inl rfl, fun r hr => ?_⟩
    cases r with
    | writer => cases hw : s.port.writer <;> simp_all [Port.request, PortRequest.isWaiting, PortRequest.isOutstanding]
    | loader => exact hr
    | engine => exact hr
  · exact Port.keepsPath_refl _

theorem State.writerAbort_keepsPath (s : State) : s.port.keepsPath s.writerAbort.port := by
  unfold State.writerAbort
  split
  · exact Port.keepsPath_refl _
  · exact State.withdrawWriter_keepsPath _

theorem State.stopBlocks_keepsPath (s : State) : s.port.keepsPath s.stopBlocks.port := by
  rw [State.stopBlocks_port]
  exact (Port.keepsPath_withdrawn _).2

theorem State.fatalFault_keepsPath (s : State) (c : FatalFault) (a : Word) :
    s.port.keepsPath (s.fatalFault c a).port := by
  have stopped := State.stopBlocks_keepsPath
    ({ s.overtakeSummary with eng := { s.overtakeSummary.eng with
        state := .faulted, windDown := false, faultCode := some c, faultAddr := a } }.raise .fault).holdTimebase
  unfold State.fatalFault
  cases c <;> simpa using stopped

theorem State.pathFailure_keepsPath (s : State) (a : Word) : s.port.keepsPath (s.pathFailure a).port := by
  simp only [State.pathFailure]
  generalize hu : ({ s with wr := { s.wr.stop with pathFailed := true } } : State) = u
  have same : s.port = u.port := by rw [← hu]
  rw [same]
  have faulted := u.fatalFault_keepsPath .resultPathError a
  (repeat' split) <;> simp only [faulted, Port.keepsPath_refl]

theorem State.writerAnswer_keepsPath (s : State) (w : Word) (a : Answer) : s.port.keepsPath (s.writerAnswer w a).port := by
  unfold State.writerAnswer
  (repeat' split) <;> simp [Port.keepsPath_refl, State.pathFailure_keepsPath]

theorem State.engineAnswer_keepsPath (s : State) (a : Answer) : s.port.keepsPath (s.engineAnswer a).port := by
  unfold State.engineAnswer
  (repeat' split) <;> first | simp [Port.keepsPath_refl] | exact ⟨.inl rfl, fun r h => by cases r <;> exact h⟩

theorem State.afterAnswer_port (s : State) : s.afterAnswer.port = s.port := by
  unfold State.afterAnswer
  split <;> simp

theorem State.answer_keepsPath (s : State) (r : Requester) (rq : Request) (a : Answer) :
    s.port.keepsPath (s.answer r rq a).port := by
  cases r <;> simp only [State.answer, State.afterAnswer_port]
  · simp [Port.keepsPath_refl]
  · exact State.writerAnswer_keepsPath _ _ _
  · exact State.engineAnswer_keepsPath _ _

/-- A request is presented by a requester with none at the port, so no transaction ends. -/
theorem State.present_keepsPath {s : State} {r : Requester} (rq : Request) (none : (s.port.request r).isNone = true) :
    s.port.keepsPath (s.present r rq).port := by
  unfold State.present
  split
  · refine ⟨.inl (by simp), fun r' h => ?_⟩
    by_cases same : r = r'
    · subst same
      cases hr : s.port.request r <;> simp_all [PortRequest.isNone, PortRequest.isOutstanding]
    · rwa [Port.request_setRequest_ne _ _ same]
  · exact State.answer_keepsPath _ _ _ _

theorem State.presentLoader_keepsPath {s : State} (none : (s.port.request .loader).isNone = true) :
    s.port.keepsPath s.presentLoader.port := by
  simp only [State.presentLoader, State.presentLane]
  (repeat' split)
  case h_1.isFalse i k _ _ =>
    exact State.present_keepsPath (s := { s with loader := { s.loader with
      nextLane := i + 1, access := some ⟨i, k, ((s.lane i).accessRequest k).1⟩ } }) _ none
  all_goals simp [Port.keepsPath_refl]

theorem State.presentWriter_keepsPath {s : State} (none : (s.port.request .writer).isNone = true) :
    s.port.keepsPath s.presentWriter.port := by
  simp only [State.presentWriter]
  (repeat' split)
  case h_1 rq task _ =>
    exact State.present_keepsPath (s := { s with wr := { s.wr with task := task } }) rq none
  all_goals exact Port.keepsPath_refl _

theorem State.presentEngine_keepsPath {s : State} (none : (s.port.request .engine).isNone = true) :
    s.port.keepsPath s.presentEngine.port := by
  unfold State.presentEngine
  split
  · exact State.present_keepsPath _ none
  · exact Port.keepsPath_refl _

theorem State.presentRequest_keepsPath (s : State) (r : Requester) : s.port.keepsPath (s.presentRequest r).port := by
  unfold State.presentRequest
  split
  · next may =>
    simp only [State.mayPresent, Bool.and_eq_true] at may
    cases r with
    | loader => exact State.presentLoader_keepsPath may.1
    | writer => exact State.presentWriter_keepsPath may.1
    | engine => exact State.presentEngine_keepsPath may.1
  · exact Port.keepsPath_refl _

theorem State.abortSession_keepsPath (s : State) : s.port.keepsPath s.abortSession.port := by
  simp only [State.abortSession, State.writerAbortEnd_frame]
  refine Port.keepsPath_trans ?_ (State.stopBlocks_keepsPath _)
  exact Port.keepsPath_trans (by simp [Port.keepsPath_refl]) (State.writerAbort_keepsPath _)

theorem State.takeAbort_keepsPath (s : State) : s.port.keepsPath s.takeAbort.port := by
  unfold State.takeAbort
  split
  · unfold State.abortPreparation
    simp only [State.prepareAbortEnd_frame]
    split
    · exact (Port.keepsPath_withdrawn _).1
    · exact Port.keepsPath_refl _
  · exact State.abortSession_keepsPath _

theorem State.pathHeld_of_port_eq {s t : State} (same : t.port = s.port) (h : s.pathHeld) : t.pathHeld := by
  unfold State.pathHeld
  rwa [same]

theorem State.pathHeld_of_free_path {s : State} (free : s.port.path = none) : s.pathHeld := by
  intro r hr
  rw [free] at hr
  cases hr

theorem State.takeEngineReset_pathHeld {s : State} (h : s.pathHeld) : s.takeEngineReset.pathHeld := by
  unfold State.takeEngineReset
  split
  · exact State.pathHeld_of_free_path rfl
  · exact h

theorem State.takeTimebaseEnd_pathHeld {s : State} (h : s.pathHeld) : s.takeTimebaseEnd.pathHeld := by
  unfold State.takeTimebaseEnd
  split
  · exact State.pathHeld_of_keepsPath (s.fatalFault_keepsPath _ _) h
  · exact h

/-- Of a tick's events an engine reset that is due and the end of the timebase alone reach the port. -/
theorem State.takeTick_pathHeld {s : State} (h : s.pathHeld) : s.takeTick.pathHeld := by
  have ended : s.finishTick.pathHeld := by
    unfold State.finishTick
    exact State.takeTimebaseEnd_pathHeld
      (State.pathHeld_of_port_eq (by simp) (State.takeEngineReset_pathHeld h))
  exact State.pathHeld_of_port_eq (by simp [State.takeTick, State.beginTick]) ended

/-- A granted request holds the path, and it is outstanding (R171). -/
theorem State.takeGrant_pathHeld {s : State} (h : s.pathHeld) (reading : Nat) : (s.takeGrant reading).pathHeld := by
  unfold State.takeGrant
  (repeat' split) <;> try exact h
  intro r hr
  simp only [State.port_setClock, Port.grant, Option.some.injEq] at hr ⊢
  subst hr
  have outstanding : ∀ (p : Port) (x : Option Requester) (y : LastServed) (q : Requester),
      Port.request { p with path := x, lastServed := y } q = p.request q := fun p x y q => by cases q <;> rfl
  rw [outstanding, Port.request_setIssue, Port.request_setRequest_same]
  rfl

/-- A transaction that ends frees the path it holds, and leaves the other requests (R172). -/
theorem Port.ended_pathHeld {s : State} (h : s.pathHeld) (r : Requester) :
    State.pathHeld { s with port := s.port.ended r } := by
  intro r' hr
  have requests : (s.port.ended r).request r' = (s.port.setRequest r .none).request r' := by cases r' <;> rfl
  simp only [Port.ended] at hr
  split at hr
  · cases hr
  · next other =>
    have ne : r ≠ r' := fun same => other (same ▸ hr)
    rw [requests, Port.request_setRequest_ne _ _ ne]
    exact h r' hr

theorem State.takeResponse_pathHeld {s : State} (h : s.pathHeld) (r : Requester) (issue : Byte) (okay : Bool)
    (data : BusData) : (s.takeResponse r issue okay data).pathHeld := by
  simp only [State.takeResponse]
  (repeat' split) <;> try exact h
  exact State.pathHeld_of_keepsPath (State.answer_keepsPath _ _ _ _) (Port.ended_pathHeld h r)

theorem State.takeTimeout_pathHeld {s : State} (h : s.pathHeld) (r : Requester) (reading : Nat) :
    (s.takeTimeout r reading).pathHeld := by
  simp only [State.takeTimeout]
  (repeat' split) <;> try exact h
  exact State.pathHeld_of_keepsPath (State.answer_keepsPath _ _ _ _) (Port.ended_pathHeld h r)

theorem State.beginReset_pathHeld {s : State} (h : s.pathHeld) : s.beginReset.pathHeld := by
  unfold State.beginReset
  split
  · exact h
  · refine State.pathHeld_of_keepsPath (s := s) ⟨.inl rfl, fun r hr => ?_⟩ h
    cases r <;> simpa [State.withdrawAll, Port.request] using hr

theorem State.beginPrepare_pathHeld {s : State} (h : s.pathHeld) : s.beginPrepare.pathHeld := by
  simp only [State.beginPrepare]
  split <;> refine State.pathHeld_of_keepsPath (s := s) ⟨.inl ?_, fun r hr => ?_⟩ h
  · rfl
  · cases r <;> exact hr
  · simp
  · cases r <;> simpa [Port.request] using hr

/-! ## Every command -/

theorem exec_keeps_pathHeld (c : Instr) (s t : State) (h : s.pathHeld) (run : exec c s = .next t) : t.pathHeld := by
  have same : ∀ u : State, u.port = s.port → u.pathHeld := fun u e => State.pathHeld_of_port_eq e h
  cases c with simp only [exec] at run
  | prepare => exact act_keeps run h (State.command_keeps (fun _ => h) fun _ _ => State.beginPrepare_pathHeld h)
  | startCommand => exact act_keeps run h (State.command_keeps (fun _ => h) fun _ _ => same _ (by simp))
  | stopCommand =>
    exact act_keeps run h (State.command_keeps (fun _ => h) fun _ _ => same _ (by simp))
  | abort =>
    exact act_keeps run h
      (State.command_keeps (fun _ => h) fun _ _ => State.pathHeld_of_keepsPath (State.takeAbort_keepsPath _) h)
  | reset => exact act_keeps run h (State.beginReset_pathHeld h)
  | engineReset => exact act_keeps run h (State.takeEngineReset_pathHeld h)
  | deviceReset => cases run; exact State.pathHeld_of_free_path rfl
  | timebaseTick => exact act_keeps run h (State.takeTick_pathHeld h)
  | timebaseEnd => exact act_keeps run h (State.takeTimebaseEnd_pathHeld h)
  | requestPresent r => exact act_keeps run h (State.pathHeld_of_keepsPath (s.presentRequest_keepsPath r) h)
  | grant reading => exact act_keeps run h (State.takeGrant_pathHeld h reading)
  | busAccept => exact act_keeps run h (State.pathHeld_of_free_path rfl)
  | response r issue okay data => exact act_keeps run h (State.takeResponse_pathHeld h r issue okay data)
  | timeout r reading => exact act_keeps run h (State.takeTimeout_pathHeld h r reading)
  | quietIntervalEnd reading =>
    refine act_keeps run h ?_
    unfold State.takeQuietEnd
    (repeat' split) <;> exact h
  | deviceResetEnd reading =>
    cases run
    unfold State.deviceResetEnd
    split <;> exact h
  | startLineEdge | tickArrival =>
    exact act_keeps run h (same _ (by simp))
  | unknownCommand => exact act_keeps run h (by split <;> exact h)
  | _ => exact act_keeps run h (same _ (by simp [State.writeAlert, State.writeEnable, State.readTimeLo]))

/-- Settles O58: whatever ends a transaction frees the path, and a grant gives it to an outstanding one. -/
theorem stepKeepsPathHeld : Obligations.StepKeepsPathHeld :=
  fun _ _ held run => step_keeps (fun _ _ h => h) exec_keeps_pathHeld held run

end Sys2Proof.Machine
end

section
/-! PROOFS. What the writer's steps, the stop of a session and the Calendar's work leave of Engine Control, and the timebase
(R150, R154): every command keeps it held outside RUNNING and DRAINING and while a summary is written. -/

namespace Sys2Proof.Machine

/-! ## Of Engine Control the writer sets the report that the result path is complete, and no more -/

@[simp] theorem State.drainConverter_engine (s : State) :
    s.drainConverter.eng.state = s.eng.state ∧ s.drainConverter.eng.windDown = s.eng.windDown ∧
      s.drainConverter.eng.prepError = s.eng.prepError ∧ s.drainConverter.eng.endCause = s.eng.endCause ∧
      s.drainConverter.eng.faultCode = s.eng.faultCode ∧ s.drainConverter.eng.faultAddr = s.eng.faultAddr ∧
      s.drainConverter.eng.secondary = s.eng.secondary ∧ s.drainConverter.eng.checked = s.eng.checked ∧
      s.drainConverter.eng.aborting = s.eng.aborting ∧ s.drainConverter.eng.task = s.eng.task ∧
      s.drainConverter.eng.staleRead = s.eng.staleRead ∧ s.drainConverter.eng.loaderQuiet = s.eng.loaderQuiet ∧
      s.drainConverter.eng.pathComplete = s.eng.pathComplete ∧ s.drainConverter.eng.markerPlaced = s.eng.markerPlaced := by
  simp [State.drainConverter]

@[simp] theorem State.stopBlocks_engine (s : State) :
    s.stopBlocks.eng.state = s.eng.state ∧ s.stopBlocks.eng.windDown = s.eng.windDown ∧
      s.stopBlocks.eng.prepError = s.eng.prepError ∧ s.stopBlocks.eng.endCause = s.eng.endCause ∧
      s.stopBlocks.eng.faultCode = s.eng.faultCode ∧ s.stopBlocks.eng.faultAddr = s.eng.faultAddr ∧
      s.stopBlocks.eng.secondary = s.eng.secondary ∧ s.stopBlocks.eng.checked = s.eng.checked ∧
      s.stopBlocks.eng.aborting = s.eng.aborting ∧ s.stopBlocks.eng.task = s.eng.task ∧
      s.stopBlocks.eng.staleRead = s.eng.staleRead ∧ s.stopBlocks.eng.loaderQuiet = s.eng.loaderQuiet ∧
      s.stopBlocks.eng.pathComplete = s.eng.pathComplete ∧ s.stopBlocks.eng.markerPlaced = s.eng.markerPlaced := by
  simp [State.stopBlocks_eng]

@[simp] theorem State.writerComplete_engine (s : State) :
    s.writerComplete.eng.state = s.eng.state ∧ s.writerComplete.eng.windDown = s.eng.windDown ∧
      s.writerComplete.eng.prepError = s.eng.prepError ∧ s.writerComplete.eng.endCause = s.eng.endCause ∧
      s.writerComplete.eng.faultCode = s.eng.faultCode ∧ s.writerComplete.eng.faultAddr = s.eng.faultAddr ∧
      s.writerComplete.eng.secondary = s.eng.secondary ∧ s.writerComplete.eng.checked = s.eng.checked ∧
      s.writerComplete.eng.aborting = s.eng.aborting ∧ s.writerComplete.eng.task = s.eng.task ∧
      s.writerComplete.eng.staleRead = s.eng.staleRead ∧ s.writerComplete.eng.converterIdle = s.eng.converterIdle ∧
      s.writerComplete.eng.loaderQuiet = s.eng.loaderQuiet ∧ s.writerComplete.eng.markerPlaced = s.eng.markerPlaced := by
  simp [State.writerComplete]

@[simp] theorem State.writerAbortEnd_engine (s : State) :
    s.writerAbortEnd.eng.state = s.eng.state ∧ s.writerAbortEnd.eng.windDown = s.eng.windDown ∧
      s.writerAbortEnd.eng.prepError = s.eng.prepError ∧ s.writerAbortEnd.eng.endCause = s.eng.endCause ∧
      s.writerAbortEnd.eng.faultCode = s.eng.faultCode ∧ s.writerAbortEnd.eng.faultAddr = s.eng.faultAddr ∧
      s.writerAbortEnd.eng.secondary = s.eng.secondary ∧ s.writerAbortEnd.eng.checked = s.eng.checked ∧
      s.writerAbortEnd.eng.aborting = s.eng.aborting ∧ s.writerAbortEnd.eng.task = s.eng.task ∧
      s.writerAbortEnd.eng.staleRead = s.eng.staleRead ∧ s.writerAbortEnd.eng.converterIdle = s.eng.converterIdle ∧
      s.writerAbortEnd.eng.loaderQuiet = s.eng.loaderQuiet ∧ s.writerAbortEnd.eng.markerPlaced = s.eng.markerPlaced := by
  simp only [State.writerAbortEnd]
  (repeat' split) <;> simp

@[simp] theorem State.beginFlush_engine (s : State) :
    s.beginFlush.eng.state = s.eng.state ∧ s.beginFlush.eng.windDown = s.eng.windDown ∧
      s.beginFlush.eng.prepError = s.eng.prepError ∧ s.beginFlush.eng.endCause = s.eng.endCause ∧
      s.beginFlush.eng.faultCode = s.eng.faultCode ∧ s.beginFlush.eng.faultAddr = s.eng.faultAddr ∧
      s.beginFlush.eng.secondary = s.eng.secondary ∧ s.beginFlush.eng.checked = s.eng.checked ∧
      s.beginFlush.eng.aborting = s.eng.aborting ∧ s.beginFlush.eng.task = s.eng.task ∧
      s.beginFlush.eng.staleRead = s.eng.staleRead ∧ s.beginFlush.eng.converterIdle = s.eng.converterIdle ∧
      s.beginFlush.eng.loaderQuiet = s.eng.loaderQuiet ∧ s.beginFlush.eng.markerPlaced = s.eng.markerPlaced := by
  simp only [State.beginFlush]
  (repeat' split) <;> simp

@[simp] theorem State.writerSettle_engine (s : State) :
    s.writerSettle.eng.state = s.eng.state ∧ s.writerSettle.eng.windDown = s.eng.windDown ∧
      s.writerSettle.eng.prepError = s.eng.prepError ∧ s.writerSettle.eng.endCause = s.eng.endCause ∧
      s.writerSettle.eng.faultCode = s.eng.faultCode ∧ s.writerSettle.eng.faultAddr = s.eng.faultAddr ∧
      s.writerSettle.eng.secondary = s.eng.secondary ∧ s.writerSettle.eng.checked = s.eng.checked ∧
      s.writerSettle.eng.aborting = s.eng.aborting ∧ s.writerSettle.eng.task = s.eng.task ∧
      s.writerSettle.eng.staleRead = s.eng.staleRead ∧ s.writerSettle.eng.converterIdle = s.eng.converterIdle ∧
      s.writerSettle.eng.loaderQuiet = s.eng.loaderQuiet ∧ s.writerSettle.eng.markerPlaced = s.eng.markerPlaced := by
  simp only [State.writerSettle]
  (repeat' split) <;> simp

@[simp] theorem State.becomeStarved_eng (s : State) : s.becomeStarved.eng = s.eng := rfl

@[simp] theorem State.rereadFailed_eng (s : State) : s.rereadFailed.eng = s.eng := by
  unfold State.rereadFailed
  split <;> rfl

@[simp] theorem State.noSlot_engine (s : State) :
    s.noSlot.eng.state = s.eng.state ∧ s.noSlot.eng.windDown = s.eng.windDown ∧
      s.noSlot.eng.prepError = s.eng.prepError ∧ s.noSlot.eng.endCause = s.eng.endCause ∧
      s.noSlot.eng.faultCode = s.eng.faultCode ∧ s.noSlot.eng.faultAddr = s.eng.faultAddr ∧
      s.noSlot.eng.secondary = s.eng.secondary ∧ s.noSlot.eng.checked = s.eng.checked ∧
      s.noSlot.eng.aborting = s.eng.aborting ∧ s.noSlot.eng.task = s.eng.task ∧
      s.noSlot.eng.staleRead = s.eng.staleRead ∧ s.noSlot.eng.converterIdle = s.eng.converterIdle ∧
      s.noSlot.eng.loaderQuiet = s.eng.loaderQuiet ∧ s.noSlot.eng.markerPlaced = s.eng.markerPlaced := by
  simp only [State.noSlot]
  (repeat' split) <;> simp

@[simp] theorem State.afterRejects_engine (s : State) (g : Option GoodSlot) :
    (s.afterRejects g).eng.state = s.eng.state ∧ (s.afterRejects g).eng.windDown = s.eng.windDown ∧
      (s.afterRejects g).eng.prepError = s.eng.prepError ∧ (s.afterRejects g).eng.endCause = s.eng.endCause ∧
      (s.afterRejects g).eng.faultCode = s.eng.faultCode ∧ (s.afterRejects g).eng.faultAddr = s.eng.faultAddr ∧
      (s.afterRejects g).eng.secondary = s.eng.secondary ∧ (s.afterRejects g).eng.checked = s.eng.checked ∧
      (s.afterRejects g).eng.aborting = s.eng.aborting ∧ (s.afterRejects g).eng.task = s.eng.task ∧
      (s.afterRejects g).eng.staleRead = s.eng.staleRead ∧ (s.afterRejects g).eng.converterIdle = s.eng.converterIdle ∧
      (s.afterRejects g).eng.loaderQuiet = s.eng.loaderQuiet ∧ (s.afterRejects g).eng.markerPlaced = s.eng.markerPlaced := by
  simp only [State.afterRejects]
  (repeat' split) <;> simp

@[simp] theorem State.examine_engine (s : State) (l : List SlotEntry) :
    (s.examine l).eng.state = s.eng.state ∧ (s.examine l).eng.windDown = s.eng.windDown ∧
      (s.examine l).eng.prepError = s.eng.prepError ∧ (s.examine l).eng.endCause = s.eng.endCause ∧
      (s.examine l).eng.faultCode = s.eng.faultCode ∧ (s.examine l).eng.faultAddr = s.eng.faultAddr ∧
      (s.examine l).eng.secondary = s.eng.secondary ∧ (s.examine l).eng.checked = s.eng.checked ∧
      (s.examine l).eng.aborting = s.eng.aborting ∧ (s.examine l).eng.task = s.eng.task ∧
      (s.examine l).eng.staleRead = s.eng.staleRead ∧ (s.examine l).eng.converterIdle = s.eng.converterIdle ∧
      (s.examine l).eng.loaderQuiet = s.eng.loaderQuiet ∧ (s.examine l).eng.markerPlaced = s.eng.markerPlaced := by
  simp only [State.examine]
  (repeat' split) <;> simp

@[simp] theorem State.limitClose_engine (s : State) (c : Closing) :
    (s.limitClose c).eng.state = s.eng.state ∧ (s.limitClose c).eng.windDown = s.eng.windDown ∧
      (s.limitClose c).eng.prepError = s.eng.prepError ∧ (s.limitClose c).eng.endCause = s.eng.endCause ∧
      (s.limitClose c).eng.faultCode = s.eng.faultCode ∧ (s.limitClose c).eng.faultAddr = s.eng.faultAddr ∧
      (s.limitClose c).eng.secondary = s.eng.secondary ∧ (s.limitClose c).eng.checked = s.eng.checked ∧
      (s.limitClose c).eng.aborting = s.eng.aborting ∧ (s.limitClose c).eng.task = s.eng.task ∧
      (s.limitClose c).eng.staleRead = s.eng.staleRead ∧ (s.limitClose c).eng.converterIdle = s.eng.converterIdle ∧
      (s.limitClose c).eng.loaderQuiet = s.eng.loaderQuiet ∧ (s.limitClose c).eng.markerPlaced = s.eng.markerPlaced := by
  simp only [State.limitClose]
  (repeat' split) <;> simp

@[simp] theorem State.closeComplete_engine (s : State) (c : Closing) :
    (s.closeComplete c).eng.state = s.eng.state ∧ (s.closeComplete c).eng.windDown = s.eng.windDown ∧
      (s.closeComplete c).eng.prepError = s.eng.prepError ∧ (s.closeComplete c).eng.endCause = s.eng.endCause ∧
      (s.closeComplete c).eng.faultCode = s.eng.faultCode ∧ (s.closeComplete c).eng.faultAddr = s.eng.faultAddr ∧
      (s.closeComplete c).eng.secondary = s.eng.secondary ∧ (s.closeComplete c).eng.checked = s.eng.checked ∧
      (s.closeComplete c).eng.aborting = s.eng.aborting ∧ (s.closeComplete c).eng.task = s.eng.task ∧
      (s.closeComplete c).eng.staleRead = s.eng.staleRead ∧ (s.closeComplete c).eng.converterIdle = s.eng.converterIdle ∧
      (s.closeComplete c).eng.loaderQuiet = s.eng.loaderQuiet ∧ (s.closeComplete c).eng.markerPlaced = s.eng.markerPlaced := by
  simp only [State.closeComplete]
  (repeat' split) <;> simp

@[simp] theorem State.writerOkay_engine (s : State) (d : BusData) :
    (s.writerOkay d).eng.state = s.eng.state ∧ (s.writerOkay d).eng.windDown = s.eng.windDown ∧
      (s.writerOkay d).eng.prepError = s.eng.prepError ∧ (s.writerOkay d).eng.endCause = s.eng.endCause ∧
      (s.writerOkay d).eng.faultCode = s.eng.faultCode ∧ (s.writerOkay d).eng.faultAddr = s.eng.faultAddr ∧
      (s.writerOkay d).eng.secondary = s.eng.secondary ∧ (s.writerOkay d).eng.checked = s.eng.checked ∧
      (s.writerOkay d).eng.aborting = s.eng.aborting ∧ (s.writerOkay d).eng.task = s.eng.task ∧
      (s.writerOkay d).eng.staleRead = s.eng.staleRead ∧ (s.writerOkay d).eng.converterIdle = s.eng.converterIdle ∧
      (s.writerOkay d).eng.loaderQuiet = s.eng.loaderQuiet ∧ (s.writerOkay d).eng.markerPlaced = s.eng.markerPlaced := by
  simp only [State.writerOkay]
  (repeat' split) <;> simp

@[simp] theorem State.reachCloseMarker_engine (s : State) (m : CloseMarker) :
    (s.reachCloseMarker m).eng.state = s.eng.state ∧ (s.reachCloseMarker m).eng.windDown = s.eng.windDown ∧
      (s.reachCloseMarker m).eng.prepError = s.eng.prepError ∧ (s.reachCloseMarker m).eng.endCause = s.eng.endCause ∧
      (s.reachCloseMarker m).eng.faultCode = s.eng.faultCode ∧ (s.reachCloseMarker m).eng.faultAddr = s.eng.faultAddr ∧
      (s.reachCloseMarker m).eng.secondary = s.eng.secondary ∧ (s.reachCloseMarker m).eng.checked = s.eng.checked ∧
      (s.reachCloseMarker m).eng.aborting = s.eng.aborting ∧ (s.reachCloseMarker m).eng.task = s.eng.task ∧
      (s.reachCloseMarker m).eng.staleRead = s.eng.staleRead ∧ (s.reachCloseMarker m).eng.converterIdle = s.eng.converterIdle ∧
      (s.reachCloseMarker m).eng.loaderQuiet = s.eng.loaderQuiet ∧ (s.reachCloseMarker m).eng.markerPlaced = s.eng.markerPlaced := by
  simp only [State.reachCloseMarker]
  (repeat' split) <;> simp

@[simp] theorem State.reachEndMarker_engine (s : State) :
    s.reachEndMarker.eng.state = s.eng.state ∧ s.reachEndMarker.eng.windDown = s.eng.windDown ∧
      s.reachEndMarker.eng.prepError = s.eng.prepError ∧ s.reachEndMarker.eng.endCause = s.eng.endCause ∧
      s.reachEndMarker.eng.faultCode = s.eng.faultCode ∧ s.reachEndMarker.eng.faultAddr = s.eng.faultAddr ∧
      s.reachEndMarker.eng.secondary = s.eng.secondary ∧ s.reachEndMarker.eng.checked = s.eng.checked ∧
      s.reachEndMarker.eng.aborting = s.eng.aborting ∧ s.reachEndMarker.eng.task = s.eng.task ∧
      s.reachEndMarker.eng.staleRead = s.eng.staleRead ∧ s.reachEndMarker.eng.converterIdle = s.eng.converterIdle ∧
      s.reachEndMarker.eng.loaderQuiet = s.eng.loaderQuiet ∧ s.reachEndMarker.eng.markerPlaced = s.eng.markerPlaced := by
  simp [State.reachEndMarker]

@[simp] theorem State.takeCloseMarker_engine (s : State) :
    s.takeCloseMarker.eng.state = s.eng.state ∧ s.takeCloseMarker.eng.windDown = s.eng.windDown ∧
      s.takeCloseMarker.eng.prepError = s.eng.prepError ∧ s.takeCloseMarker.eng.endCause = s.eng.endCause ∧
      s.takeCloseMarker.eng.faultCode = s.eng.faultCode ∧ s.takeCloseMarker.eng.faultAddr = s.eng.faultAddr ∧
      s.takeCloseMarker.eng.secondary = s.eng.secondary ∧ s.takeCloseMarker.eng.checked = s.eng.checked ∧
      s.takeCloseMarker.eng.aborting = s.eng.aborting ∧ s.takeCloseMarker.eng.task = s.eng.task ∧
      s.takeCloseMarker.eng.staleRead = s.eng.staleRead ∧ s.takeCloseMarker.eng.converterIdle = s.eng.converterIdle ∧
      s.takeCloseMarker.eng.loaderQuiet = s.eng.loaderQuiet ∧ s.takeCloseMarker.eng.markerPlaced = s.eng.markerPlaced := by
  simp only [State.takeCloseMarker]
  (repeat' split) <;> simp

@[simp] theorem State.takeEndMarker_engine (s : State) :
    s.takeEndMarker.eng.state = s.eng.state ∧ s.takeEndMarker.eng.windDown = s.eng.windDown ∧
      s.takeEndMarker.eng.prepError = s.eng.prepError ∧ s.takeEndMarker.eng.endCause = s.eng.endCause ∧
      s.takeEndMarker.eng.faultCode = s.eng.faultCode ∧ s.takeEndMarker.eng.faultAddr = s.eng.faultAddr ∧
      s.takeEndMarker.eng.secondary = s.eng.secondary ∧ s.takeEndMarker.eng.checked = s.eng.checked ∧
      s.takeEndMarker.eng.aborting = s.eng.aborting ∧ s.takeEndMarker.eng.task = s.eng.task ∧
      s.takeEndMarker.eng.staleRead = s.eng.staleRead ∧ s.takeEndMarker.eng.converterIdle = s.eng.converterIdle ∧
      s.takeEndMarker.eng.loaderQuiet = s.eng.loaderQuiet ∧ s.takeEndMarker.eng.markerPlaced = s.eng.markerPlaced := by
  simp only [State.takeEndMarker]
  (repeat' split) <;> simp

@[simp] theorem State.takeConversionEnd_engine (s : State) :
    s.takeConversionEnd.eng.state = s.eng.state ∧ s.takeConversionEnd.eng.windDown = s.eng.windDown ∧
      s.takeConversionEnd.eng.prepError = s.eng.prepError ∧ s.takeConversionEnd.eng.endCause = s.eng.endCause ∧
      s.takeConversionEnd.eng.faultCode = s.eng.faultCode ∧ s.takeConversionEnd.eng.faultAddr = s.eng.faultAddr ∧
      s.takeConversionEnd.eng.secondary = s.eng.secondary ∧ s.takeConversionEnd.eng.checked = s.eng.checked ∧
      s.takeConversionEnd.eng.aborting = s.eng.aborting ∧ s.takeConversionEnd.eng.task = s.eng.task ∧
      s.takeConversionEnd.eng.staleRead = s.eng.staleRead ∧ s.takeConversionEnd.eng.loaderQuiet = s.eng.loaderQuiet ∧
      s.takeConversionEnd.eng.pathComplete = s.eng.pathComplete ∧ s.takeConversionEnd.eng.markerPlaced = s.eng.markerPlaced := by
  simp only [State.takeConversionEnd]
  (repeat' split) <;> simp

@[simp] theorem State.tb_holdTimebase (s : State) : s.holdTimebase.tb = { s.tb with runs := false } := rfl

/-! ## A drain begins (R157) -/

/-- Engine Control once a drain has begun. -/
def EngineControl.drained (g : EngineControl) (cause : EndCause) (idle : Bool) : EngineControl :=
  { g with state := .draining, endCause := cause, converterIdle := idle, loaderQuiet := false, pathComplete := false,
           markerPlaced := false }

theorem State.beginDrain_eng (s : State) (c : EndCause) :
    (s.beginDrain c).eng = s.eng.drained c (s.conv.drain s.now).1.idle := by
  simp only [State.beginDrain, State.restartStarveCount_frame, State.drainConverter_eng]
  simp [EngineControl.drained, State.now]

/-- Engine Control is as it was, or an END cue has begun a drain in RUNNING. -/
def State.keepsOrDrains (s t : State) : Prop :=
  t.eng = s.eng ∨ (s.eng.state = .running ∧ ∃ idle, t.eng = s.eng.drained .endCue idle)

theorem State.keepsOrDrains_trans {s t u : State} (first : s.keepsOrDrains t) (second : t.keepsOrDrains u) :
    s.keepsOrDrains u := by
  rcases first with first | ⟨running, idle, first⟩
  · unfold State.keepsOrDrains at second ⊢
    rwa [first] at second
  · rcases second with second | ⟨running', _⟩
    · exact .inr ⟨running, idle, second.trans first⟩
    · rw [first] at running'
      cases running'

theorem State.dispatch_keepsOrDrains (s : State) (e : Entry) (l : Option Half) :
    (s.dispatch e l).eng = s.eng ∨ ∃ idle, (s.dispatch e l).eng = s.eng.drained .endCue idle := by
  simp only [State.dispatch]
  split
  case h_5 =>
    simp only [State.dispatchEnd]
    split
    · exact .inl (by simp)
    · exact .inr ⟨_, by rw [State.beginDrain_eng, (State.retireEntry_frame _ _ _ _).2.1]⟩
  all_goals exact .inl (by simp)

theorem State.handleEntry_keepsOrDrains (s : State) (e : Entry) (running : s.eng.state = .running) :
    s.keepsOrDrains (s.handleEntry e) := by
  simp only [State.handleEntry]
  split
  · exact .inl (by simp)
  · rcases s.dispatch_keepsOrDrains e (s.lateness e) with kept | drained
    · exact .inl kept
    · exact .inr ⟨running, drained⟩

theorem State.expiredEntry_eq_some {s : State} {e : Entry} (h : s.expiredEntry = some e) :
    s.eng.state = .running ∧ ∃ rest, s.cal = e :: rest ∧ e.cue.due.toNat ≤ s.now.toNat := by
  unfold State.expiredEntry at h
  (repeat' split at h) <;> simp_all

theorem State.takeExpiry_keepsOrDrains (s : State) : s.keepsOrDrains s.takeExpiry := by
  unfold State.takeExpiry
  split
  · next e he =>
    exact State.handleEntry_keepsOrDrains { s with cal := s.cal.tail } e (State.expiredEntry_eq_some he).1
  · exact .inl rfl

theorem State.takeHead_keepsOrDrains (s : State) (i : LaneId) (h : Head) (c : Cue) : s.keepsOrDrains (s.takeHead i h c) := by
  simp only [State.takeHead]
  split
  · next late => exact State.handleEntry_keepsOrDrains (s.setLane i _) _ late.1
  · exact .inl rfl

theorem State.offerHead_keepsOrDrains (s : State) (i : LaneId) : s.keepsOrDrains (s.offerHead i) := by
  unfold State.offerHead
  split
  · exact s.takeHead_keepsOrDrains _ _ _
  · exact .inl rfl

theorem State.takeExpiries_keepsOrDrains (s : State) (n : Nat) : s.keepsOrDrains (s.takeExpiries n) := by
  induction n generalizing s with
  | zero => exact .inl rfl
  | succ n ih =>
    rw [State.takeExpiries_succ]
    exact State.keepsOrDrains_trans s.takeExpiry_keepsOrDrains (ih _)

theorem State.settleCalendar_keepsOrDrains (s : State) (n : Nat) : s.keepsOrDrains (s.settleCalendar n) := by
  induction n generalizing s with
  | zero => exact .inl rfl
  | succ n ih =>
    unfold State.settleCalendar
    split
    · exact State.keepsOrDrains_trans s.takeExpiry_keepsOrDrains (ih _)
    · split
      · exact State.keepsOrDrains_trans (s.offerHead_keepsOrDrains _) (ih _)
      · exact .inl rfl

/-! ## The timebase stays held (R150, R154) -/

theorem State.timebaseHeld_of_eq {s t : State} (held : s.timebaseHeld) (divider : t.tb.divider = s.tb.divider)
    (runs : t.tb.runs = s.tb.runs) (state : t.eng.state = s.eng.state) (task : t.eng.task = s.eng.task)
    (checked : t.eng.checked = s.eng.checked) : t.timebaseHeld := by
  unfold State.timebaseHeld at held ⊢
  rwa [divider, runs, state, task, checked]

/-- Where the timebase is held, and neither a summary is written nor the control block read. -/
theorem State.timebaseHeld_of_idle {t : State} (divider : 1 ≤ t.tb.divider ∧ t.tb.divider ≤ 1024)
    (runs : t.tb.runs = true → t.eng.state = .running ∨ t.eng.state = .draining)
    (noSummary : t.eng.task.isSummary = false) (noRead : t.eng.task.isRead = false) : t.timebaseHeld :=
  ⟨divider, runs, fun h => by simp [noSummary] at h, fun h => by simp [noRead] at h⟩

theorem State.timebaseHeld_of_keepsOrDrains {s t : State} (held : s.timebaseHeld) (same : t.tb = s.tb)
    (h : s.keepsOrDrains t) : t.timebaseHeld := by
  rcases h with h | ⟨running, idle, h⟩
  · exact State.timebaseHeld_of_eq held (by rw [same]) (by rw [same]) (by rw [h]) (by rw [h]) (by rw [h])
  · obtain ⟨divider, runs, summary, read⟩ := held
    unfold State.timebaseHeld
    rw [same, h]
    refine ⟨divider, fun _ => .inr rfl, fun hs => ?_, fun hr => ?_⟩
    · exact absurd (summary hs).2 (by simp [running])
    · exact absurd (read hr).1 (by simp [running])

/-- In ARMED, RUNNING and DRAINING no control block is read, and in the first two no summary is written. -/
theorem State.task_of_timebaseHeld {s : State} (held : s.timebaseHeld) :
    (s.eng.state ≠ .preparing → s.eng.task.isRead = false) ∧
      (s.eng.state = .armed ∨ s.eng.state = .running ∨ s.eng.state = .preparing ∨ s.eng.state = .off →
        s.eng.task.isSummary = false) ∧
      (s.eng.checked = true → s.eng.task.isRead = false) := by
  obtain ⟨-, -, summary, read⟩ := held
  refine ⟨fun h => ?_, fun h => ?_, fun h => ?_⟩
  · by_contra hr
    exact h (read (by simpa using hr)).1
  · by_contra hs
    have := (summary (by simpa using hs)).2
    rcases h with h | h | h | h <;> simp [h] at this
  · by_contra hr
    have := (read (by simpa using hr)).2
    simp [h] at this

theorem State.held_of_timebaseHeld {s : State} (held : s.timebaseHeld) (h : s.eng.state ≠ .running)
    (h' : s.eng.state ≠ .draining) : s.tb.runs = false := by
  by_contra runs
  rcases held.2.1 (by simpa using runs) with e | e
  · exact h e
  · exact h' e


/-! ## What each effect makes of the timebase and of Engine Control's task -/

theorem State.failPrepare_timebaseHeld {s : State} (held : s.timebaseHeld) (notRuns : s.tb.runs = false)
    (e : PrepareError) : (s.failPrepare e).timebaseHeld :=
  State.timebaseHeld_of_idle (by simpa using held.1) (by simp [notRuns]) rfl rfl

theorem State.beginPrepare_timebaseHeld {s : State} (held : s.timebaseHeld) (between : s.betweenSessions = true) :
    s.beginPrepare.timebaseHeld := by
  have notRuns : s.tb.runs = false := by
    apply State.held_of_timebaseHeld held <;> intro h <;> simp [State.betweenSessions, h] at between
  simp only [State.beginPrepare]
  split
  · exact ⟨held.1, by simp [notRuns], by simp [EngineTask.isSummary], fun _ => ⟨rfl, rfl⟩⟩
  · exact State.timebaseHeld_of_idle (by simpa using held.1) (by simp [notRuns]) rfl rfl

theorem State.startSession_timebaseHeld {s : State} (held : s.timebaseHeld) (armed : s.eng.state = .armed) :
    s.startSession.timebaseHeld := by
  have free := State.task_of_timebaseHeld held
  have running : State.timebaseHeld { s with eng := { s.eng with state := .running }, tb := { s.tb with runs := true } } :=
    State.timebaseHeld_of_idle held.1 (fun _ => .inl rfl) (free.2.1 (.inl armed)) (free.1 (by simp [armed]))
  simp only [State.startSession]
  split
  · exact running
  · exact State.timebaseHeld_of_keepsOrDrains running (by simp) (State.takeExpiries_keepsOrDrains _ _)

theorem State.takeStop_timebaseHeld {s : State} (held : s.timebaseHeld) (allowed : s.stopAllowed = true) :
    s.takeStop.timebaseHeld := by
  have state : s.eng.state = .armed ∨ s.eng.state = .running := by simpa [State.stopAllowed] using allowed
  have free := State.task_of_timebaseHeld held
  unfold State.takeStop
  refine State.timebaseHeld_of_idle (by simpa using held.1) ?_ ?_ ?_ <;>
    simp only [State.beginDrain_eng, EngineControl.drained]
  · exact fun _ => .inr trivial
  · exact free.2.1 (by rcases state with h | h <;> simp [h])
  · exact free.1 (by rcases state with h | h <;> simp [h])

/-- What a summary write becomes that an abort or a fault overtakes, and what no other task becomes. -/
theorem State.overtakeSummary_task (s : State) :
    s.overtakeSummary.eng.task.isSummary = false ∧ s.overtakeSummary.eng.task.isRead = s.eng.task.isRead := by
  unfold State.overtakeSummary
  cases task : s.eng.task with
  | summary k bytes => cases s.port.engine <;> exact ⟨rfl, rfl⟩
  | none | readFirst | readSecond | discard => exact ⟨by rw [task]; rfl, by rw [task]⟩

theorem State.fatalFault_timebaseHeld {s : State} (held : s.timebaseHeld) (noRead : s.eng.task.isRead = false)
    (code : FatalFault) (a : Word) : (s.fatalFault code a).timebaseHeld := by
  have task := s.overtakeSummary_task
  rw [noRead] at task
  unfold State.fatalFault
  cases code <;> refine State.timebaseHeld_of_idle ?_ ?_ ?_ ?_ <;> simp [task, held.1]

/-- The state in which Engine Control meets a failure of the result path: the writer has stopped (R139). -/
def State.pathLost (s : State) : State := { s with wr := { s.wr.stop with pathFailed := true } }

/-- What a failure of the result path can come to: a fatal fault, a second failure, or nothing more (R160, R162, R166). -/
theorem State.pathFailure_keeps {P : State → Prop} {s : State} {a : Word} (stopped : P s.pathLost)
    (faulted : s.eng.resetPending = false → s.eng.state ≠ .faulted → s.eng.state ≠ .off →
      P (s.pathLost.fatalFault .resultPathError a))
    (second : s.eng.state = .faulted →
      P { s.pathLost with eng := { s.pathLost.eng with secondary := true, pathComplete := true } }) :
    P (s.pathFailure a) := by
  have eng : s.pathLost.eng = s.eng := rfl
  have unfolded : s.pathFailure a = if s.pathLost.eng.resetPending then s.pathLost else
      match s.pathLost.eng.state with
      | .preparing | .armed | .running | .draining => s.pathLost.fatalFault .resultPathError a
      | .ended => if s.pathLost.eng.windDown then s.pathLost else s.pathLost.fatalFault .resultPathError a
      | .faulted => { s.pathLost with eng := { s.pathLost.eng with secondary := true, pathComplete := true } }
      | .off => s.pathLost := rfl
  rw [unfolded]
  generalize s.pathLost = u at *
  rw [← eng] at faulted second
  (repeat' split) <;> simp_all

theorem State.pathFailure_timebaseHeld {s : State} (held : s.timebaseHeld) (noRead : s.eng.task.isRead = false)
    (a : Word) : (s.pathFailure a).timebaseHeld := by
  have lost : s.pathLost.timebaseHeld := held
  exact State.pathFailure_keeps lost (fun _ _ _ => State.fatalFault_timebaseHeld lost noRead .resultPathError a)
    fun _ => lost

/-- What an answer to the writer can come to: its task goes on or the path fails, or the answer is discarded (R139, R153,
R166). -/
theorem State.writerAnswer_keeps {P : State → Prop} {s : State} {w : Word} {a : Answer}
    (discarded : s.writerWorks = false → P { s with wr := { s.wr with task := .none } })
    (kept : s.writerWorks = true → s.eng.resetPending = true → P s)
    (okay : s.writerWorks = true → ∀ d, P (s.writerOkay d)) (failed : s.writerWorks = true → P (s.pathFailure w)) :
    P (s.writerAnswer w a) := by
  unfold State.writerAnswer
  split
  · next idle => exact discarded (by simpa using idle)
  · next working =>
    have works : s.writerWorks = true := by simpa using working
    cases a with
    | okay d =>
      dsimp only
      split
      · next discards => exact kept works (by simp_all)
      · exact okay works d
    | error | outsideWindow => exact failed works

theorem State.writerAnswer_timebaseHeld {s : State} (held : s.timebaseHeld) (w : Word) (a : Answer) :
    (s.writerAnswer w a).timebaseHeld := by
  refine State.writerAnswer_keeps (fun _ => held) (fun _ _ => held)
    (fun _ d => State.timebaseHeld_of_eq held (by simp) (by simp) (by simp) (by simp) (by simp)) fun works =>
    State.pathFailure_timebaseHeld held ?_ w
  by_cases preparing : s.eng.state = .preparing
  · refine (State.task_of_timebaseHeld held).2.2 ?_
    simp only [State.writerWorks, preparing, State.initialFetch] at works
    simp_all
  · exact (State.task_of_timebaseHeld held).1 preparing

/-- The divider in force is the one that the checks let pass (R150). -/
theorem prepareChecks_divider {cba : Word} {cb : BitVec 1024} {su : SessionSetup} (h : prepareChecks cba cb = .ok su) :
    1 ≤ su.divider ∧ su.divider ≤ 1024 := by
  simp only [prepareChecks] at h
  (repeat' split at h) <;> try cases h
  simp
  omega

theorem State.finishSummary_timebaseHeld {s : State} (held : s.timebaseHeld) (summary : s.eng.task.isSummary = true) :
    s.finishSummary.timebaseHeld := by
  have notRuns := (held.2.2.1 summary).1
  refine State.timebaseHeld_of_idle (by simpa using held.1) (by simp [notRuns]) ?_ ?_ <;>
    simp only [State.finishSummary] <;> split <;> rfl

/-- What the answer to an access of Engine Control can come to: a read goes on, ends the preparation or sets the session
up, a summary write goes on or ends the summary, and any other answer is discarded (R149, R159, R164, R166). -/
theorem State.engineAnswer_keeps {P : State → Prop} {s : State} {a : Answer}
    (discarded : ∀ stale, P { s with eng := { s.eng with task := .none, staleRead := stale } })
    (stale : P { s with eng := { s.eng with staleRead := false } })
    (failed : s.eng.task.isRead = true → ∀ e, P (s.failPrepare e))
    (readNext : s.eng.task.isRead = true → ∀ d, P { s with eng := { s.eng with task := .readSecond d } })
    (setUp : s.eng.task.isRead = true → ∀ cb su, prepareChecks s.eng.cba cb = .ok su → P (s.setUpSession su))
    (writeNext : s.eng.task.isSummary = true →
      ∀ k bytes, P { s with eng := { s.eng with task := .summary k bytes } })
    (finished : s.eng.task.isSummary = true →
      ∀ secondary, P (State.finishSummary { s with eng := { s.eng with secondary := secondary } })) :
    P (s.engineAnswer a) := by
  unfold State.engineAnswer
  split
  · exact discarded false
  · cases task : s.eng.task with dsimp only
    | readFirst =>
      have read : s.eng.task.isRead = true := by rw [task]; rfl
      cases a <;> (repeat' split) <;> first | exact stale | exact failed read _ | exact readNext read _
    | readSecond d =>
      have read : s.eng.task.isRead = true := by rw [task]; rfl
      cases a <;> (repeat' split) <;> first | exact failed read _ | exact setUp read _ _ (by assumption)
    | summary k bytes =>
      have summary : s.eng.task.isSummary = true := by rw [task]; rfl
      cases a with
      | okay d =>
        dsimp only
        split
        · exact finished summary s.eng.secondary
        · exact writeNext summary _ _
      | error | outsideWindow => exact finished summary true
    | discard => exact discarded s.eng.staleRead
    | none => exact stale

theorem State.engineAnswer_timebaseHeld {s : State} (held : s.timebaseHeld) (a : Answer) :
    (s.engineAnswer a).timebaseHeld := by
  have preparing : s.eng.task.isRead = true → s.eng.state = .preparing ∧ s.eng.checked = false := held.2.2.2
  refine State.engineAnswer_keeps (fun _ => State.timebaseHeld_of_idle held.1 held.2.1 rfl rfl) held ?_ ?_ ?_ ?_ ?_
  · exact fun read e => State.failPrepare_timebaseHeld held
      (State.held_of_timebaseHeld held (by simp [preparing read]) (by simp [preparing read])) e
  · exact fun read d => ⟨held.1, held.2.1, by simp [EngineTask.isSummary], fun _ => preparing read⟩
  · exact fun _ cb su h =>
      State.timebaseHeld_of_idle (prepareChecks_divider h) (by simp [State.setUpSession]) rfl rfl
  · exact fun summary k bytes => ⟨held.1, held.2.1, fun _ => held.2.2.1 summary, by simp [EngineTask.isRead]⟩
  · exact fun summary b => State.finishSummary_timebaseHeld
      (s := { s with eng := { s.eng with secondary := b } }) held summary

theorem State.prepareAbortEnd_timebaseHeld {s : State} (held : s.timebaseHeld) (preparing : s.eng.state = .preparing) :
    s.prepareAbortEnd.timebaseHeld := by
  have notRuns : s.tb.runs = false := State.held_of_timebaseHeld held (by simp [preparing]) (by simp [preparing])
  simp only [State.prepareAbortEnd]
  (repeat' split) <;> first | exact held | exact State.failPrepare_timebaseHeld held notRuns .aborted

theorem State.afterAnswer_timebaseHeld {s : State} (held : s.timebaseHeld) : s.afterAnswer.timebaseHeld := by
  unfold State.afterAnswer
  split
  · next h => exact State.prepareAbortEnd_timebaseHeld held (by simp_all)
  · exact held

theorem State.answer_timebaseHeld {s : State} (held : s.timebaseHeld) (r : Requester) (rq : Request) (a : Answer) :
    (s.answer r rq a).timebaseHeld := by
  cases r <;> refine State.afterAnswer_timebaseHeld ?_
  · exact State.timebaseHeld_of_eq held (by simp) (by simp) (by simp) (by simp) (by simp)
  · exact State.writerAnswer_timebaseHeld held _ _
  · exact State.engineAnswer_timebaseHeld held _

/-- A presented request waits, or is answered at once; that it waits changes the port alone. -/
theorem State.present_timebaseHeld {s : State} (held : s.timebaseHeld) (r : Requester) (rq : Request) :
    (s.present r rq).timebaseHeld := by
  unfold State.present
  split
  · exact held
  · exact State.answer_timebaseHeld held _ _ _

/-- What presenting a request can come to: a lane fault, or a request presented with the access or task it is for. -/
theorem State.presentRequest_keeps {P : State → Prop} {s : State} {r : Requester} (kept : P s)
    (limit : ∀ i, P (s.laneFault i .sequenceLimit (s.lane i).current))
    (loader : (s.port.request .loader).isNone = true → s.loaderWorks = true → ∀ i k, s.chosenAccess = some (i, k) →
      P (State.present { s with loader := { s.loader with
        nextLane := i + 1, access := some ⟨i, k, ((s.lane i).accessRequest k).1⟩ } } .loader ((s.lane i).accessRequest k).2))
    (writer : (s.port.request .writer).isNone = true → s.writerWorks = true → ∀ rq task, s.writerWants = some (rq, task) →
      P (State.present { s with wr := { s.wr with task := task } } .writer rq))
    (engine : (s.port.request .engine).isNone = true → ∀ rq, s.engineWants = some rq → P (s.present .engine rq)) :
    P (s.presentRequest r) := by
  unfold State.presentRequest
  split
  · next may =>
    simp only [State.mayPresent, Bool.and_eq_true] at may
    cases r with dsimp only
    | loader =>
      unfold State.presentLoader
      split
      · next works =>
        cases chosen : s.chosenAccess with dsimp only
        | none => exact kept
        | some x =>
          simp only [State.presentLane]
          split
          · exact limit x.1
          · exact loader may.1 works x.1 x.2 chosen
      · exact kept
    | writer =>
      unfold State.presentWriter
      split
      · next works =>
        cases wants : s.writerWants with dsimp only
        | none => exact kept
        | some x => exact writer may.1 works x.1 x.2 wants
      · exact kept
    | engine =>
      unfold State.presentEngine
      cases wants : s.engineWants with dsimp only
      | none => exact kept
      | some rq => exact engine may.1 rq wants
  · exact kept

theorem State.takeResponse_keeps {P : State → Prop} {s : State} {r : Requester} {issue : Byte} {okay : Bool}
    {data : BusData} (kept : P s) (answered : ∀ rq, (s.port.request r).isOutstanding = true →
      P (State.answer { s with port := s.port.ended r } r rq (responseAnswer okay data))) :
    P (s.takeResponse r issue okay data) := by
  unfold State.takeResponse
  cases quiet : s.port.quiet <;> cases outstanding : s.port.request r <;> try exact kept
  dsimp only
  split
  · exact answered _ (by rw [outstanding]; rfl)
  · exact kept

theorem State.takeTimeout_keeps {P : State → Prop} {s : State} {r : Requester} {reading : Nat} (kept : P s)
    (answered : ∀ rq, (s.port.request r).isOutstanding = true →
      P (State.answer (State.setClock { s with port := s.port.ended r } reading) r rq .error)) :
    P (s.takeTimeout r reading) := by
  unfold State.takeTimeout
  cases outstanding : s.port.request r <;> try exact kept
  dsimp only
  split
  · exact answered _ (by rw [outstanding]; rfl)
  · exact kept

theorem State.abortSession_timebaseHeld {s : State} (held : s.timebaseHeld) (noRead : s.eng.task.isRead = false) :
    s.abortSession.timebaseHeld := by
  have task := s.overtakeSummary_task
  rw [noRead] at task
  refine State.timebaseHeld_of_idle ?_ ?_ ?_ ?_ <;> simp [State.abortSession, task, held.1]

theorem State.takeAbort_timebaseHeld {s : State} (held : s.timebaseHeld) : s.takeAbort.timebaseHeld := by
  unfold State.takeAbort
  split
  · next preparing =>
    simp only [State.abortPreparation]
    exact State.prepareAbortEnd_timebaseHeld (by split <;> exact held) (by split <;> exact preparing)
  · next other => exact State.abortSession_timebaseHeld held ((State.task_of_timebaseHeld held).1 other)

theorem State.takeEngineReset_timebaseHeld {s : State} (held : s.timebaseHeld) : s.takeEngineReset.timebaseHeld := by
  unfold State.takeEngineReset
  split
  · exact State.timebaseHeld_of_idle ⟨Nat.le_refl 1, by simp [State.engineReset, Timebase.reset]⟩ (by simp [State.engineReset, Timebase.reset]) rfl rfl
  · exact held

theorem State.takeTimebaseEnd_timebaseHeld {s : State} (held : s.timebaseHeld) : s.takeTimebaseEnd.timebaseHeld := by
  unfold State.takeTimebaseEnd
  split
  · next due =>
    refine State.fatalFault_timebaseHeld held ((State.task_of_timebaseHeld held).1 fun h => ?_) _ _
    simp [State.timebaseEndDue, h] at due
  · exact held

theorem State.takeTick_timebaseHeld {s : State} (held : s.timebaseHeld) : s.takeTick.timebaseHeld := by
  have settled := State.timebaseHeld_of_keepsOrDrains (State.takeEngineReset_timebaseHeld held) (by simp)
    (State.settleCalendar_keepsOrDrains s.takeEngineReset (s.takeEngineReset.cal.length + 12))
  have ended : s.finishTick.timebaseHeld := by
    unfold State.finishTick
    refine State.takeTimebaseEnd_timebaseHeld (State.timebaseHeld_of_eq settled ?_ ?_ ?_ ?_ ?_) <;>
      simp [State.takeScan_tb]
  refine State.timebaseHeld_of_eq ended ?_ ?_ ?_ ?_ ?_ <;> simp [State.takeTick, State.beginTick]

theorem State.takeInitialFetchComplete_timebaseHeld {s : State} (held : s.timebaseHeld) :
    s.takeInitialFetchComplete.timebaseHeld := by
  have free := State.task_of_timebaseHeld held
  unfold State.takeInitialFetchComplete
  split
  · next done =>
    simp only [State.initialFetchDone, State.initialFetch, Bool.and_eq_true, beq_iff_eq] at done
    obtain ⟨⟨⟨⟨preparing, checked⟩, -⟩, -⟩, -⟩ := done
    refine State.timebaseHeld_of_idle held.1 ?_ (free.2.1 (by simp [preparing])) (free.2.2 checked)
    simp [State.held_of_timebaseHeld held (by simp [preparing]) (by simp [preparing])]
  · exact held

theorem State.takeSummary_timebaseHeld {s : State} (held : s.timebaseHeld) : s.takeSummary.timebaseHeld := by
  unfold State.takeSummary
  split
  · next due =>
    have state : s.eng.state = .draining ∨ s.eng.state = .ended ∨ s.eng.state = .faulted := by
      simp only [State.summaryDue, State.windingDown, Bool.and_eq_true, Bool.or_eq_true, beq_iff_eq] at due
      tauto
    exact ⟨held.1, by simp [State.beginSummary], fun _ => ⟨rfl, state⟩, by simp [State.beginSummary, EngineTask.isRead]⟩
  · exact held

/-! ## Every command -/

theorem exec_keeps_timebaseHeld (c : Instr) (s t : State) (h : s.timebaseHeld) (run : exec c s = .next t) :
    t.timebaseHeld := by
  have same : ∀ u : State, u.tb.divider = s.tb.divider ∧ u.tb.runs = s.tb.runs ∧ u.eng.state = s.eng.state ∧
      u.eng.task = s.eng.task ∧ u.eng.checked = s.eng.checked → u.timebaseHeld :=
    fun u ⟨h1, h2, h3, h4, h5⟩ => State.timebaseHeld_of_eq h h1 h2 h3 h4 h5
  have expiry := State.timebaseHeld_of_keepsOrDrains h (by simp) s.takeExpiry_keepsOrDrains
  cases c with simp only [exec] at run
  | prepare =>
    exact act_keeps run h (State.command_keeps (fun _ => h) fun allowed _ => State.beginPrepare_timebaseHeld h allowed)
  | startCommand =>
    exact act_keeps run h (State.command_keeps (fun _ => h) fun allowed _ =>
      State.startSession_timebaseHeld h (by simpa using allowed))
  | stopCommand =>
    exact act_keeps run h (State.command_keeps (fun _ => h) fun allowed _ => State.takeStop_timebaseHeld h allowed)
  | abort => exact act_keeps run h (State.command_keeps (fun _ => h) fun _ _ => State.takeAbort_timebaseHeld h)
  | unknownCommand => exact act_keeps run h (by split <;> exact h)
  | engineReset => exact act_keeps run h (State.takeEngineReset_timebaseHeld h)
  | deviceReset =>
    cases run
    exact State.timebaseHeld_of_idle ⟨Nat.le_refl 1, by simp [State.deviceReset, State.reset, Timebase.reset]⟩
      (by simp [State.deviceReset, State.reset, Timebase.reset]) rfl rfl
  | startLineEdge level =>
    refine act_keeps run h ?_
    unfold State.sampleStart
    (repeat' split) <;> try exact h
    next armed => exact State.startSession_timebaseHeld h (by simp_all)
  | timebaseTick => exact act_keeps run h (State.takeTick_timebaseHeld h)
  | timebaseEnd => exact act_keeps run h (State.takeTimebaseEnd_timebaseHeld h)
  | expiry => exact act_keeps run h expiry
  | laneHeadOffer i =>
    exact act_keeps run h (State.timebaseHeld_of_keepsOrDrains h (by simp) (s.offerHead_keepsOrDrains i))
  | set | start | stop | pause | resume | stage | fire | snapshot | powerOn | powerOff | reference | convert | note
  | closePage | endCue => exact act_keeps run h (State.takeCue_keeps h expiry _)
  | requestPresent r =>
    exact act_keeps run h (State.presentRequest_keeps h (fun _ => same _ (by simp))
      (fun _ _ _ _ _ => State.present_timebaseHeld (by exact h) _ _)
      (fun _ _ _ _ _ => State.present_timebaseHeld (by exact h) _ _)
      fun _ _ _ => State.present_timebaseHeld h _ _)
  | response =>
    exact act_keeps run h (State.takeResponse_keeps h fun _ _ =>
      State.answer_timebaseHeld (by exact h) _ _ _)
  | timeout =>
    exact act_keeps run h (State.takeTimeout_keeps h fun _ _ =>
      State.answer_timebaseHeld (by exact h) _ _ _)
  | initialFetchComplete => exact act_keeps run h (State.takeInitialFetchComplete_timebaseHeld h)
  | endSummaryWrite => exact act_keeps run h (State.takeSummary_timebaseHeld h)
  | scanEvent => exact act_keeps run h (same _ (by simp [State.takeScan_tb]))
  | drainLimitExpiry =>
    refine act_keeps run h (same _ ?_)
    unfold State.takeDrainLimitExpiry State.takeDrainLimit EngineControl.drainLost
    (repeat' split) <;> simp
  | deviceResetEnd =>
    cases run
    exact same _ (by simp)
  | _ => exact act_keeps run h (same _
      (by simp [State.writeAlert, State.writeEnable, State.readTimeLo, State.takeAccept, State.eng_setResult]))

/-- Settles O60: the timebase runs from a start to the end of a session, and a summary is begun with it held. -/
theorem stepKeepsTimebaseHeld : Obligations.StepKeepsTimebaseHeld :=
  fun _ _ held run => step_keeps (fun _ _ h => h) exec_keeps_timebaseHeld held run

end Sys2Proof.Machine
end

section
/-! PROOFS. What the channels keep (R58, R59, R69, R79): a property that each operation of a channel keeps is kept by every
command; every command keeps the counters in their ranges and the channels at rest outside RUNNING. -/

namespace Sys2Proof.Machine

/-! ## A property of each channel -/

/-- Every operation of one channel keeps the property, and a channel newly set up has it. -/
structure ChannelKept (Q : Channel → Prop) : Prop where
  take : ∀ {c : Channel} (id : ChanId) (now : Tick) (tag : Half) (v : ChanVerb), Q c → Q (c.take id now tag v).1
  arrival : ∀ {c : Channel} (id : ChanId) (now : Tick) (level : Level), Q c → Q (c.arrival id now level).1
  trigger : ∀ {c : Channel} (now : Tick), Q c → Q (c.trigger now).1
  sessionStop : ∀ {c : Channel}, Q c → Q c.sessionStop
  arrived : ∀ {c : Channel} (b : Bool), Q c → Q { c with arrived := b }
  prepared : ∀ (rest line : Level) (arrived : Bool), Q (Channel.prepared rest line arrived)
  reset : Q Channel.reset

def State.eachChannel (Q : Channel → Prop) (s : State) : Prop := ∀ ch, Q (s.chan ch)

theorem State.eachChannel_of_chans_eq {Q : Channel → Prop} {s t : State} (same : t.chans = s.chans)
    (h : s.eachChannel Q) : t.eachChannel Q := by
  intro ch
  rw [State.chan_eq, same]
  exact h ch

theorem State.eachChannel_setChan {Q : Channel → Prop} {s : State} (h : s.eachChannel Q) (i : ChanId) {c : Channel}
    (hc : Q c) : (s.setChan i c).eachChannel Q := by
  intro ch
  by_cases same : i = ch
  · rw [← same, State.chan_setChan_same]
    exact hc
  · rw [State.chan_setChan_ne _ _ same]
    exact h ch

theorem State.eachChannel_reset {Q : Channel → Prop} {s : State} (reset : Q Channel.reset)
    (h : s.chans = Vector.replicate 16 Channel.reset) : s.eachChannel Q := by
  intro ch
  simp [State.chan_eq, h, reset]

/-! ## The events that reach the channels -/

theorem State.stopBlocks_chans (s : State) : s.stopBlocks.chans = s.stopChannels.chans := by
  simp [State.stopBlocks, State.stopChannels, State.mapChans]

theorem State.beginDrain_chans (s : State) (c : EndCause) : (s.beginDrain c).chans = s.stopChannels.chans := by
  simp [State.beginDrain, State.stopChannels, State.mapChans]

theorem State.fatalFault_chans (s : State) (code : FatalFault) (a : Word) :
    (s.fatalFault code a).chans = s.stopChannels.chans := by
  cases code <;> simp [State.fatalFault, State.stopBlocks_chans, State.stopChannels, State.mapChans]

theorem State.abortSession_chans (s : State) : s.abortSession.chans = s.stopChannels.chans := by
  simp [State.abortSession, State.stopBlocks_chans, State.stopChannels, State.mapChans]

section
variable {Q : Channel → Prop} (kept : ChannelKept Q) {s : State}
include kept

theorem State.stopChannels_eachChannel (h : s.eachChannel Q) : s.stopChannels.eachChannel Q := by
  intro ch
  rw [State.chan_stopChannels]
  exact kept.sessionStop (h ch)

theorem State.beginDrain_eachChannel (h : s.eachChannel Q) (c : EndCause) : (s.beginDrain c).eachChannel Q :=
  State.eachChannel_of_chans_eq (s.beginDrain_chans c) (State.stopChannels_eachChannel kept h)

theorem State.fatalFault_eachChannel (h : s.eachChannel Q) (code : FatalFault) (a : Word) :
    (s.fatalFault code a).eachChannel Q :=
  State.eachChannel_of_chans_eq (s.fatalFault_chans code a) (State.stopChannels_eachChannel kept h)

theorem State.dispatch_eachChannel (h : s.eachChannel Q) (e : Entry) (l : Option Half) :
    (s.dispatch e l).eachChannel Q := by
  simp only [State.dispatch]
  split
  case h_1 ch verb _ =>
    refine State.eachChannel_of_chans_eq (s := s.setChan ch ((s.chan ch).take ch s.now e.cue.tag verb).1)
      (by simp [State.dispatchChannel]) ?_
    exact State.eachChannel_setChan h ch (kept.take _ _ _ _ (h ch))
  case h_5 =>
    simp only [State.dispatchEnd]
    have retired : (s.retireEntry e (dispatchOutcome l .done) l).eachChannel Q :=
      State.eachChannel_of_chans_eq (by simp) h
    split
    · exact retired
    · exact State.beginDrain_eachChannel kept retired _
  all_goals exact State.eachChannel_of_chans_eq (by simp) h

theorem State.handleEntry_eachChannel (h : s.eachChannel Q) (e : Entry) : (s.handleEntry e).eachChannel Q := by
  simp only [State.handleEntry]
  split
  · exact State.eachChannel_of_chans_eq (by simp) h
  · exact State.dispatch_eachChannel kept h e _

theorem State.takeExpiry_eachChannel (h : s.eachChannel Q) : s.takeExpiry.eachChannel Q := by
  unfold State.takeExpiry
  split
  · exact State.handleEntry_eachChannel kept (s := { s with cal := s.cal.tail }) h _
  · exact h

theorem State.takeExpiries_eachChannel (h : s.eachChannel Q) (n : Nat) : (s.takeExpiries n).eachChannel Q := by
  induction n generalizing s with
  | zero => exact h
  | succ n ih =>
    rw [State.takeExpiries_succ]
    exact ih (State.takeExpiry_eachChannel kept h)

theorem State.startSession_eachChannel (h : s.eachChannel Q) : s.startSession.eachChannel Q := by
  simp only [State.startSession]
  split
  · exact h
  · exact State.takeExpiries_eachChannel kept (by exact h) _

theorem State.offerHead_eachChannel (h : s.eachChannel Q) (i : LaneId) : (s.offerHead i).eachChannel Q := by
  unfold State.offerHead
  split
  · simp only [State.takeHead]
    split
    · exact State.handleEntry_eachChannel kept (by exact h) _
    · exact h
  · exact h

theorem State.settleCalendar_eachChannel (h : s.eachChannel Q) (n : Nat) : (s.settleCalendar n).eachChannel Q := by
  induction n generalizing s with
  | zero => exact h
  | succ n ih =>
    unfold State.settleCalendar
    split
    · exact ih (State.takeExpiry_eachChannel kept h)
    · split
      · exact ih (State.offerHead_eachChannel kept h _)
      · exact h

theorem State.takeArrival_eachChannel (h : s.eachChannel Q) (ch : ChanId) (level : Level) :
    (s.takeArrival ch level).eachChannel Q := by
  simp only [State.takeArrival]
  split
  · refine State.eachChannel_of_chans_eq
      (s := State.setChan { s with links := s.links ++ ((s.chan ch).arrival ch s.now level).2.1 } ch _) (by simp; rfl) ?_
    exact State.eachChannel_setChan (by exact h) ch (kept.arrival ch s.now level (h ch))
  · exact h

theorem State.settleArrivals_eachChannel (h : s.eachChannel Q) (l : List ChanId) :
    (s.settleArrivals l).eachChannel Q := by
  induction l generalizing s with
  | nil => exact h
  | cons ch rest ih => exact ih (State.takeArrival_eachChannel kept h ch _)

theorem State.takeFire_eachChannel (h : s.eachChannel Q) (source target : ChanId) :
    (s.takeFire source target).eachChannel Q := by
  unfold State.takeFire
  split
  · exact State.eachChannel_setChan (by exact h) target (kept.trigger s.now (h target))
  · exact h

theorem State.settleLinks_eachChannel (h : s.eachChannel Q) (l : List LinkDelivery) :
    (s.settleLinks l).eachChannel Q := by
  induction l generalizing s with
  | nil => exact h
  | cons d rest ih =>
    refine ih ?_
    unfold State.takeLink
    split
    · exact State.takeFire_eachChannel kept h _ _
    · exact State.eachChannel_of_chans_eq (by simp) h
    · exact h

theorem State.takeEngineReset_eachChannel (h : s.eachChannel Q) : s.takeEngineReset.eachChannel Q := by
  unfold State.takeEngineReset
  split
  · exact State.eachChannel_reset kept.reset rfl
  · exact h

theorem State.takeTimebaseEnd_eachChannel (h : s.eachChannel Q) : s.takeTimebaseEnd.eachChannel Q := by
  unfold State.takeTimebaseEnd
  split
  · exact State.fatalFault_eachChannel kept h _ _
  · exact h

theorem State.beginTick_eachChannel (h : s.eachChannel Q) : s.beginTick.eachChannel Q := by
  intro ch
  unfold State.beginTick
  rw [State.chan_mapChans]
  exact kept.arrived _ (h ch)

theorem State.takeTick_eachChannel (h : s.eachChannel Q) : s.takeTick.eachChannel Q := by
  unfold State.takeTick State.finishTick
  refine State.beginTick_eachChannel kept (State.eachChannel_of_chans_eq (State.chans_presentOutputs _) ?_)
  refine State.takeTimebaseEnd_eachChannel kept (State.eachChannel_of_chans_eq (by simp; rfl) ?_)
  refine State.settleLinks_eachChannel kept (State.settleArrivals_eachChannel kept
    (State.eachChannel_of_chans_eq (by simp; rfl) ?_) _) _
  exact State.settleCalendar_eachChannel kept (State.takeEngineReset_eachChannel kept h) _

theorem State.takeAbort_eachChannel (h : s.eachChannel Q) : s.takeAbort.eachChannel Q := by
  unfold State.takeAbort
  split
  · exact State.eachChannel_of_chans_eq (by simp) h
  · exact State.eachChannel_of_chans_eq s.abortSession_chans (State.stopChannels_eachChannel kept h)

theorem State.engineAnswer_eachChannel (h : s.eachChannel Q) (a : Answer) : (s.engineAnswer a).eachChannel Q := by
  refine State.engineAnswer_keeps (fun _ => h) h (fun _ _ => State.eachChannel_of_chans_eq (by simp) h) (fun _ _ => h) ?_
    (fun _ _ _ => h) fun _ _ => State.eachChannel_of_chans_eq (s := s) (by simp) h
  intro _ cb su _ ch
  simp only [State.setUpSession, State.chan]
  simpa using kept.prepared _ _ _

theorem State.answer_eachChannel (h : s.eachChannel Q) (r : Requester) (rq : Request) (a : Answer) :
    (s.answer r rq a).eachChannel Q := by
  have after : ∀ u : State, u.eachChannel Q → u.afterAnswer.eachChannel Q := by
    intro u hu
    unfold State.afterAnswer
    split
    · exact State.eachChannel_of_chans_eq (by simp) hu
    · exact hu
  cases r with
  | loader => exact after _ (State.eachChannel_of_chans_eq (by simp) h)
  | engine => exact after _ (State.engineAnswer_eachChannel kept h a)
  | writer =>
    exact after _ (State.writerAnswer_keeps (fun _ => h) (fun _ _ => h)
      (fun _ d => State.eachChannel_of_chans_eq (by simp) h) fun _ =>
      State.pathFailure_keeps (by exact h) (fun _ _ _ => State.fatalFault_eachChannel kept (by exact h) _ _)
        fun _ => by exact h)

theorem State.present_eachChannel (h : s.eachChannel Q) (r : Requester) (rq : Request) :
    (s.present r rq).eachChannel Q := by
  unfold State.present
  split
  · exact h
  · exact State.answer_eachChannel kept h _ _ _

theorem exec_keeps_eachChannel (c : Instr) (t : State) (h : s.eachChannel Q) (run : exec c s = .next t) :
    t.eachChannel Q := by
  have same : ∀ u : State, u.chans = s.chans → u.eachChannel Q := fun u e => State.eachChannel_of_chans_eq e h
  have expiry := State.takeExpiry_eachChannel kept h
  cases c with simp only [exec] at run
  | prepare =>
    refine act_keeps run h (State.command_keeps (fun _ => h) fun _ _ => same _ ?_)
    simp only [State.beginPrepare]
    split <;> simp
  | startCommand =>
    exact act_keeps run h (State.command_keeps (fun _ => h) fun _ _ => State.startSession_eachChannel kept (by exact h))
  | stopCommand =>
    exact act_keeps run h (State.command_keeps (fun _ => h) fun _ _ =>
      State.beginDrain_eachChannel kept (by exact h) _)
  | abort =>
    exact act_keeps run h (State.command_keeps (fun _ => h) fun _ _ => State.takeAbort_eachChannel kept (by exact h))
  | unknownCommand => exact act_keeps run h (by split <;> exact h)
  | deviceReset =>
    cases run
    exact State.eachChannel_reset kept.reset rfl
  | deviceResetEnd =>
    cases run
    exact same _ (by simp)
  | engineReset => exact act_keeps run h (State.takeEngineReset_eachChannel kept h)
  | startLineEdge level =>
    refine act_keeps run h ?_
    simp only [State.sampleStart]
    (repeat' split) <;> first | exact h | exact State.startSession_eachChannel kept (by exact h)
  | timebaseTick => exact act_keeps run h (State.takeTick_eachChannel kept h)
  | timebaseEnd => exact act_keeps run h (State.takeTimebaseEnd_eachChannel kept h)
  | tickArrival ch level => exact act_keeps run h (State.takeArrival_eachChannel kept (by exact h) ch level)
  | expiry => exact act_keeps run h expiry
  | laneHeadOffer i => exact act_keeps run h (State.offerHead_eachChannel kept h i)
  | set | start | stop | pause | resume | stage | fire | snapshot | powerOn | powerOff | reference | convert | note
  | closePage | endCue => exact act_keeps run h (State.takeCue_keeps h expiry _)
  | fireLinkDelivery source target => exact act_keeps run h (State.takeFire_eachChannel kept h source target)
  | requestPresent r =>
    exact act_keeps run h (State.presentRequest_keeps h (fun _ => same _ (by simp))
      (fun _ _ _ _ _ => State.present_eachChannel kept (by exact h) _ _)
      (fun _ _ _ _ _ => State.present_eachChannel kept (by exact h) _ _)
      fun _ _ _ => State.present_eachChannel kept h _ _)
  | response =>
    exact act_keeps run h (State.takeResponse_keeps h fun _ _ => State.answer_eachChannel kept (by exact h) _ _ _)
  | timeout =>
    exact act_keeps run h (State.takeTimeout_keeps h fun _ _ => State.answer_eachChannel kept (by exact h) _ _ _)
  | _ => exact act_keeps run h (same _
      (by simp [State.writeAlert, State.writeEnable, State.readTimeLo, State.takeAccept]))

end

/-! ## Counters in their ranges (R58, R59, R69) -/

/-- A counter of 0 is in range, where a ONE_SHOT channel has no mark of 0 (R53, R69). -/
theorem Channel.countsInRange_of_zero {c : Channel} (zero : c.counter = 0)
    (marks : ∀ st, c.settings = some st → st.shape = .oneShot →
      st.action ≠ 0 ∧ ∀ m, c.staged = some m → (st.withMarks m).action ≠ 0) : c.countsInRange := by
  intro st hst
  refine ⟨fun l hl => ?_, fun shape => ?_⟩
  · have := (Settings.wrapLimit_range hl).1
    simp only [zero, BitVec.ofNat_eq_ofNat, BitVec.toNat_ofNat]
    omega
  · obtain ⟨action, staged⟩ := marks st hst shape
    refine ⟨action, staged, fun _ => ?_⟩
    simp only [zero, BitVec.ofNat_eq_ofNat, BitVec.toNat_ofNat]
    exact Nat.pos_of_ne_zero fun h => action (BitVec.eq_of_toNat_eq h)

/-- The range looks at the settings, the counter, the staged marks and whether a pulse goes on. -/
theorem Channel.countsInRange_congr {c d : Channel} (range : c.countsInRange) (settings : d.settings = c.settings)
    (counter : d.counter = c.counter) (staged : ∀ m, d.staged = some m → c.staged = some m)
    (pulse : d.mode = .pulsing ∨ (d.mode = .paused ∧ d.pausedFrom = some .pulsing) →
      c.mode = .pulsing ∨ (c.mode = .paused ∧ c.pausedFrom = some .pulsing)) : d.countsInRange := by
  intro st hst
  rw [settings] at hst
  rw [counter]
  obtain ⟨limit, oneShot⟩ := range st hst
  exact ⟨limit, fun shape => ⟨(oneShot shape).1, fun m hm => (oneShot shape).2.1 m (staged m hm),
    fun h => (oneShot shape).2.2 (pulse h)⟩⟩

/-- What taking the staged marks leaves of a ONE_SHOT channel's marks (R69, R70). -/
theorem Channel.takeMarks_marks {c : Channel} (range : c.countsInRange) :
    ∀ st, c.takeMarks.settings = some st → st.shape = .oneShot →
      st.action ≠ 0 ∧ ∀ m, c.takeMarks.staged = some m → (st.withMarks m).action ≠ 0 := by
  intro st hst shape
  rw [Channel.takeMarks_settings] at hst
  cases old : c.settings with
  | none => simp [old] at hst
  | some st₀ =>
    have before := range st₀ old
    rw [Channel.takeMarks_staged old]
    cases marks : c.staged with
    | none =>
      simp only [old, marks, Option.map_some, Option.some.injEq] at hst
      subst hst
      exact ⟨(before.2 shape).1, by simp⟩
    | some m =>
      simp only [old, marks, Option.map_some, Option.some.injEq] at hst
      subst hst
      exact ⟨(before.2 shape).2.1 m marks, by simp⟩

theorem Channel.wrap_countsInRange {c : Channel} (range : c.countsInRange) : c.wrap.countsInRange := by
  obtain ⟨counter, -, settings, staged, -⟩ := c.wrap_spec
  refine Channel.countsInRange_of_zero counter ?_
  rw [settings, staged]
  exact Channel.takeMarks_marks range

/-- A clock event keeps the counter in range: it wraps at the limit, and a pulse ends at the action mark. -/
theorem Channel.advance_countsInRange {c : Channel} {st : Settings} (hst : c.settings = some st)
    (range : c.countsInRange) : (c.advance st).1.countsInRange := by
  by_cases hw : st.wrapLimit = some (c.counter.toNat + 1)
  · rw [Channel.advance_of_wrap hw]
    exact Channel.wrap_countsInRange range
  obtain ⟨limit, oneShot⟩ := range st hst
  have belowLimit : ∀ l, st.wrapLimit = some l → c.counter.toNat + 1 < l := fun l hl => by
    have below := limit l hl
    have other : l ≠ c.counter.toNat + 1 := fun h => hw (h ▸ hl)
    omega
  by_cases ha : c.counter.toNat + 1 = st.action.toNat
  · rw [Channel.advance_of_action hw ha]
    have matched := ({ c with counter := st.action } : Channel).aMatch_frame st
    obtain ⟨settings, -, staged, counter, -, -, -, -, -, -, -, -⟩ := matched
    intro st' hst'
    rw [settings, hst, Option.some.injEq] at hst'
    subst hst'
    refine ⟨fun l hl => ?_, fun shape => ⟨(oneShot shape).1, fun m hm => ?_, fun pulse => ?_⟩⟩
    · rw [counter]
      have := belowLimit l hl
      simp only [← ha]
      exact this
    · exact (oneShot shape).2.1 m (by rwa [staged] at hm)
    · simp only [Channel.aMatch, shape] at pulse
      split at pulse <;> simp at pulse
  · rw [Channel.advance_of_no_event hw ha]
    intro st' hst'
    rw [show ({ c with counter := c.counter + 1 } : Channel).settings = some st from hst, Option.some.injEq] at hst'
    subst hst'
    have next : (c.counter + 1).toNat ≤ c.counter.toNat + 1 := by
      rw [BitVec.toNat_add]
      exact Nat.mod_le _ _
    refine ⟨fun l hl => ?_, fun shape => ⟨(oneShot shape).1, (oneShot shape).2.1, fun pulse => ?_⟩⟩
    · exact Nat.lt_of_le_of_lt next (belowLimit l hl)
    · have below := (oneShot shape).2.2 pulse
      show (c.counter + 1).toNat < _
      omega

theorem Channel.pulseRestart_countsInRange {c : Channel} (range : c.countsInRange) (now : Tick) :
    (c.pulseRestart now).countsInRange :=
  Channel.countsInRange_of_zero rfl (Channel.takeMarks_marks range)

theorem Channel.trigger_countsInRange {c : Channel} (range : c.countsInRange) (now : Tick) :
    (c.trigger now).1.countsInRange := by
  unfold Channel.trigger
  (repeat' split) <;> first
    | exact range
    | exact Channel.pulseRestart_countsInRange range now
    | exact Channel.countsInRange_of_zero rfl (Channel.takeMarks_marks range)

/-- A counted tick changes the divider phase, and by its clock event the counter. -/
theorem Channel.clock_eq (c : Channel) (st : Settings) (edge : Option Edge) :
    (c.clock st edge).1 = { c with phase := (c.clock st edge).1.phase } := by
  unfold Channel.clock
  (repeat' split) <;> rfl

/-- What a counted tick makes of the channel: nothing, a phase, or a clock event behind it. -/
theorem Channel.count_keeps {Q : Channel → Prop} {c : Channel} {id : ChanId} {now : Tick} {edge : Option Edge} (kept : Q c)
    (counted : c.counting now = true → ∀ st phase, c.settings = some st → Q { c with phase := phase })
    (advanced : c.counting now = true → ∀ st phase, c.settings = some st →
      Q (({ c with phase := phase } : Channel).advance st).1) :
    Q (c.count id now edge).1 := by
  unfold Channel.count
  cases settings : c.settings with
  | none => exact kept
  | some st =>
    dsimp only
    split
    · next counting =>
      have clocked := c.clock_eq st edge
      generalize c.clock st edge = r at *
      obtain ⟨d, event⟩ := r
      dsimp only at clocked
      rw [clocked]
      cases event with
      | false => exact counted counting st d.phase settings
      | true =>
        have next := advanced counting st d.phase settings
        dsimp only
        generalize ({ c with phase := d.phase } : Channel).advance st = a at *
        obtain ⟨e, kind⟩ := a
        cases kind <;> exact next
    · exact kept

theorem Channel.arrival_countsInRange {c : Channel} (range : c.countsInRange) (id : ChanId) (now : Tick) (level : Level) :
    (c.arrival id now level).1.countsInRange := by
  have sampled : ({ c with lastSample := level, arrived := true } : Channel).countsInRange := range
  have counted := Channel.count_keeps (id := id) (now := now) (edge := edgeOf c.lastSample level)
    (Q := Channel.countsInRange) sampled (fun _ _ _ _ => sampled)
    (fun _ st _ hst => Channel.advance_countsInRange hst sampled)
  simp only [Channel.arrival]
  generalize Channel.count _ id now (edgeOf c.lastSample level) = r at *
  have handled : (r.1.handleEdge id now (edgeOf c.lastSample level)).1.countsInRange := by
    unfold Channel.handleEdge
    (repeat' split) <;> first | exact counted | exact Channel.trigger_countsInRange counted now
  exact handled

/-- A settings record that is legal gives a ONE_SHOT channel an action mark other than 0 (R53). -/
theorem legalSettings_oneShot {own : ChanId} {r : BitVec 160} {st : Settings} (h : legalSettings own r = some st)
    (shape : st.shape = .oneShot) : st.action ≠ 0 := by
  unfold legalSettings at h
  split at h
  · split at h
    · next legal =>
      cases h
      simp_all [Settings.legal, Settings.marksLegal]
    · cases h
  · cases h

theorem Channel.set_countsInRange {c : Channel} (range : c.countsInRange) (id : ChanId) (r : BitVec 160) (tag : Half) :
    (c.set id r tag).1.countsInRange := by
  unfold Channel.set
  split
  · split
    · next st legal =>
      refine Channel.countsInRange_of_zero rfl fun st' hst shape => ?_
      simp only [Option.some.injEq] at hst
      subst hst
      exact ⟨legalSettings_oneShot legal shape, by simp⟩
    · exact range
  · exact range

theorem Channel.start_countsInRange {c : Channel} (range : c.countsInRange) (now : Tick) (tag : Half) :
    (c.start now tag).1.countsInRange := by
  have fresh : (c.restartFresh now tag).startOutput.countsInRange := by
    have marks := Channel.takeMarks_marks range
    have settings : (c.restartFresh now tag).settings = c.takeMarks.settings := rfl
    have staged : (c.restartFresh now tag).staged = c.takeMarks.staged := rfl
    rw [← settings, ← staged] at marks
    have zero : (c.restartFresh now tag).counter = 0 := rfl
    generalize c.restartFresh now tag = d at *
    unfold Channel.startOutput
    split <;> exact Channel.countsInRange_of_zero zero marks
  unfold Channel.start
  split <;> first | exact fresh | exact range

theorem Channel.halt_countsInRange {c : Channel} (range : c.countsInRange) : c.halt.countsInRange :=
  Channel.countsInRange_congr range rfl rfl (by simp [Channel.halt]) (by simp [Channel.halt])

theorem Channel.pause_countsInRange {c : Channel} (range : c.countsInRange) : c.pause.1.countsInRange := by
  unfold Channel.pause
  split <;> try exact range
  · exact Channel.countsInRange_congr range rfl rfl (fun _ h => h) (by simp)
  · next pulsing => exact Channel.countsInRange_congr range rfl rfl (fun _ h => h) fun _ => .inl pulsing

theorem Channel.resume_countsInRange {c : Channel} (range : c.countsInRange) (now : Tick) :
    (c.resume now).1.countsInRange := by
  unfold Channel.resume
  split
  · next p paused from_ =>
    refine Channel.countsInRange_congr range rfl rfl (fun _ h => h) fun pulse => .inr ⟨paused, ?_⟩
    cases p <;> simp_all [PausedFrom.mode]
  · exact range

theorem Channel.stage_countsInRange {c : Channel} (range : c.countsInRange) (m : Marks) :
    (c.stage m).1.countsInRange := by
  unfold Channel.stage
  split <;> try exact range
  next st hst _ =>
    split
    · next legal =>
      intro st' hst'
      obtain ⟨limit, oneShot⟩ := range st' hst'
      refine ⟨limit, fun shape => ⟨(oneShot shape).1, fun m' hm => ?_, (oneShot shape).2.2⟩⟩
      have same : st' = st := Option.some.inj (hst'.symm.trans hst)
      simp only [Option.some.injEq] at hm
      subst hm same
      have shape' : (st'.withMarks m).shape = .oneShot := shape
      simpa [Settings.marksLegal, shape'] using legal
    · exact range

theorem Channel.fire_countsInRange {c : Channel} (range : c.countsInRange) (now : Tick) :
    (c.fire now).1.countsInRange := by
  have triggered := Channel.trigger_countsInRange range now
  unfold Channel.fire
  split
  · next h => rwa [h] at triggered
  · exact range
  · exact range

theorem Channel.take_countsInRange {c : Channel} (range : c.countsInRange) (id : ChanId) (now : Tick) (tag : Half)
    (v : ChanVerb) : (c.take id now tag v).1.countsInRange := by
  cases v with
  | set r => exact Channel.set_countsInRange range id r tag
  | start => exact Channel.start_countsInRange range now tag
  | stop =>
    have halted := Channel.halt_countsInRange range
    simp only [Channel.take, Channel.stop]
    split <;> first | exact halted | exact range
  | pause => exact Channel.pause_countsInRange range
  | resume => exact Channel.resume_countsInRange range now
  | stage m => exact Channel.stage_countsInRange range m
  | fire => exact Channel.fire_countsInRange range now
  | snapshot => exact range

theorem Channel.countsInRange_of_no_settings {c : Channel} (h : c.settings = none) : c.countsInRange := by
  intro st hst
  rw [h] at hst
  cases hst

theorem channelKept_countsInRange : ChannelKept Channel.countsInRange where
  take id now tag v h := Channel.take_countsInRange h id now tag v
  arrival id now level h := Channel.arrival_countsInRange h id now level
  trigger now h := Channel.trigger_countsInRange h now
  arrived _ h := h
  prepared _ _ _ := Channel.countsInRange_of_no_settings rfl
  reset := Channel.countsInRange_of_no_settings rfl
  sessionStop {c} h := by
    unfold Channel.sessionStop
    split
    case h_5 => exact Channel.countsInRange_congr h rfl rfl (by simp) (fun p => p)
    case h_6 => exact h
    all_goals exact Channel.halt_countsInRange h

/-- Settles O57: each operation of a channel keeps its counter in range, and so does every command. -/
theorem stepKeepsCountersInRange : Obligations.StepKeepsCountersInRange :=
  fun _ _ held run => step_keeps (P := State.eachChannel Channel.countsInRange) (fun _ _ h => h)
    (fun c _ t => exec_keeps_eachChannel channelKept_countsInRange c t) held run

/-! ## A resting channel drives its rest level (R79) -/

/-- An UNSET or STOPPED channel drives its rest level. -/
def Channel.atRestLevel (c : Channel) : Prop := c.resting → c.output = c.restLevel

theorem Channel.atRestLevel_of_not_resting {c : Channel} (h : ¬ c.resting) : c.atRestLevel := fun r => absurd r h

theorem Channel.trigger_of_resting {c : Channel} (h : c.resting) (now : Tick) : (c.trigger now).1 = c := by
  unfold Channel.trigger
  rcases h with h | h <;> simp only [h] <;> split <;> simp

theorem Channel.trigger_atRestLevel {c : Channel} (h : c.atRestLevel) (now : Tick) : (c.trigger now).1.atRestLevel := by
  by_cases resting : c.resting
  · rwa [Channel.trigger_of_resting resting]
  · unfold Channel.trigger
    (repeat' split) <;> first
      | exact h
      | (refine Channel.atRestLevel_of_not_resting ?_; simp_all [Channel.resting, Channel.pulseRestart])

theorem Channel.counting_of_resting {c : Channel} (h : c.resting) (now : Tick) : c.counting now = false := by
  rcases h with h | h <;> simp [Channel.counting, h]

theorem Channel.count_of_resting {c : Channel} (h : c.resting) (id : ChanId) (now : Tick) (edge : Option Edge) :
    c.count id now edge = (c, []) := by
  unfold Channel.count
  split
  · rw [if_neg (by simp [Channel.counting_of_resting h])]
  · rfl

theorem Channel.handleEdge_of_resting {c : Channel} (h : c.resting) (id : ChanId) (now : Tick) (edge : Option Edge) :
    c.handleEdge id now edge = (c, []) := by
  have notRunning : c.mode ≠ .running := by rcases h with h | h <;> simp [h]
  unfold Channel.handleEdge
  (repeat' split) <;> simp_all [Channel.trigger_of_resting h]

/-- At a tick arrival a resting channel samples its line, and no more (R57, R86, R96). -/
theorem Channel.arrival_of_resting {c : Channel} (h : c.resting) (id : ChanId) (now : Tick) (level : Level) :
    c.arrival id now level = ({ c with lastSample := level, arrived := true, resumed := false }, [], []) := by
  have sampled : ({ c with lastSample := level, arrived := true } : Channel).resting := h
  simp only [Channel.arrival, Channel.count_of_resting sampled, Channel.handleEdge_of_resting sampled]

theorem Channel.advance_atRestLevel {c : Channel} (active : ¬ c.resting) (st : Settings) :
    (c.advance st).1.atRestLevel := by
  by_cases hw : st.wrapLimit = some (c.counter.toNat + 1)
  · rw [Channel.advance_of_wrap hw]
    refine Channel.atRestLevel_of_not_resting ?_
    have mode : c.wrap.mode = c.mode := c.wrap_spec.2.2.2.2.1
    simpa [Channel.resting, mode] using active
  by_cases ha : c.counter.toNat + 1 = st.action.toNat
  · rw [Channel.advance_of_action hw ha]
    unfold Channel.aMatch
    (repeat' split) <;> first
      | exact Channel.atRestLevel_of_not_resting active
      | exact fun _ => rfl
      | exact Channel.atRestLevel_of_not_resting (by simp [Channel.resting])
  · rw [Channel.advance_of_no_event hw ha]
    exact Channel.atRestLevel_of_not_resting active

theorem Channel.arrival_atRestLevel {c : Channel} (h : c.atRestLevel) (id : ChanId) (now : Tick) (level : Level) :
    (c.arrival id now level).1.atRestLevel := by
  by_cases resting : c.resting
  · rw [Channel.arrival_of_resting resting]
    exact h
  have counted := Channel.count_keeps (id := id) (now := now) (edge := edgeOf c.lastSample level)
    (c := { c with lastSample := level, arrived := true }) (Q := Channel.atRestLevel) h (fun _ _ _ _ => h)
    (fun _ _ _ _ => Channel.advance_atRestLevel (by exact resting) _)
  simp only [Channel.arrival]
  generalize Channel.count _ id now (edgeOf c.lastSample level) = r at *
  have handled : (r.1.handleEdge id now (edgeOf c.lastSample level)).1.atRestLevel := by
    unfold Channel.handleEdge
    (repeat' split) <;> first | exact counted | exact Channel.trigger_atRestLevel counted now
  exact handled

theorem Channel.take_atRestLevel {c : Channel} (h : c.atRestLevel) (id : ChanId) (now : Tick) (tag : Half)
    (v : ChanVerb) : (c.take id now tag v).1.atRestLevel := by
  have moved : ∀ d : Channel, d.mode ≠ .unset → d.mode ≠ .stopped → d.atRestLevel := fun d unset stopped =>
    Channel.atRestLevel_of_not_resting (by simp [Channel.resting, unset, stopped])
  cases v <;> simp only [Channel.take]
  case set r =>
    unfold Channel.set
    (repeat' split) <;> first | exact h | exact fun _ => rfl
  case start =>
    have fresh : (c.restartFresh now tag).startOutput.atRestLevel := by
      have restarted : (c.restartFresh now tag).atRestLevel := by
        simpa [Channel.atRestLevel, Channel.resting, Channel.restartFresh] using h
      unfold Channel.startOutput
      split
      · exact moved _ (by dsimp only; split <;> simp) (by dsimp only; split <;> simp)
      · exact restarted
    unfold Channel.start
    split <;> first | exact fresh | exact h
  case stop =>
    unfold Channel.stop
    split <;> first | exact h | exact fun _ => rfl
  case pause =>
    unfold Channel.pause
    split <;> first | exact h | exact moved _ (by simp) (by simp)
  case resume =>
    unfold Channel.resume
    split
    · next p _ _ => exact moved _ (by cases p <;> simp [PausedFrom.mode]) (by cases p <;> simp [PausedFrom.mode])
    · exact h
  case stage m =>
    unfold Channel.stage
    (repeat' split) <;> exact h
  case fire =>
    have triggered := Channel.trigger_atRestLevel h now
    unfold Channel.fire
    split
    · next fired => rwa [fired] at triggered
    · exact h
    · exact h
  case snapshot => exact h

theorem Channel.halt_atRestLevel (c : Channel) : c.halt.atRestLevel := fun _ => rfl

theorem channelKept_atRestLevel : ChannelKept Channel.atRestLevel where
  take id now tag v h := Channel.take_atRestLevel h id now tag v
  arrival id now level h := Channel.arrival_atRestLevel h id now level
  trigger now h := Channel.trigger_atRestLevel h now
  arrived _ h := h
  prepared _ _ _ := fun _ => rfl
  reset := fun _ => rfl
  sessionStop {c} h := by
    unfold Channel.sessionStop
    split <;> first | exact c.halt_atRestLevel | exact h

/-! ## Outside RUNNING every channel rests (R79, Table 4-1) -/

def State.restsOutsideRunning (s : State) : Prop := s.eng.state ≠ .running → s.eachChannel Channel.resting

theorem Channel.sessionStop_resting (c : Channel) : c.sessionStop.resting := by
  unfold Channel.sessionStop
  split
  case h_5 | h_6 => simp_all [Channel.resting]
  all_goals exact .inr rfl

theorem State.stopChannels_resting (s : State) : s.stopChannels.eachChannel Channel.resting := by
  intro ch
  rw [State.chan_stopChannels]
  exact Channel.sessionStop_resting _

theorem State.restsOutsideRunning_of_stopped {s t : State} (stopped : t.chans = s.stopChannels.chans) :
    t.restsOutsideRunning :=
  fun _ => State.eachChannel_of_chans_eq stopped s.stopChannels_resting

theorem State.restsOutsideRunning_of_eq {s t : State} (h : s.restsOutsideRunning) (same : t.chans = s.chans)
    (state : t.eng.state ≠ .running → s.eng.state ≠ .running) : t.restsOutsideRunning :=
  fun other => State.eachChannel_of_chans_eq same (h (state other))

theorem State.restsOutsideRunning_of_running {s : State} (running : s.eng.state = .running) : s.restsOutsideRunning :=
  fun other => absurd running other

theorem State.handleEntry_restsOutsideRunning {s : State} (running : s.eng.state = .running) (e : Entry) :
    (s.handleEntry e).restsOutsideRunning := by
  have kept : ∀ t : State, t.eng = s.eng → t.restsOutsideRunning := fun t same =>
    State.restsOutsideRunning_of_running (by rw [same]; exact running)
  simp only [State.handleEntry]
  split
  · exact kept _ (by simp)
  · simp only [State.dispatch]
    split
    case h_5 =>
      simp only [State.dispatchEnd]
      split
      · exact kept _ (by simp)
      · exact State.restsOutsideRunning_of_stopped (State.beginDrain_chans _ _)
    all_goals exact kept _ (by simp)

theorem State.takeExpiry_restsOutsideRunning {s : State} (h : s.restsOutsideRunning) :
    s.takeExpiry.restsOutsideRunning := by
  unfold State.takeExpiry
  split
  · next e expired =>
    exact State.handleEntry_restsOutsideRunning (by exact (State.expiredEntry_eq_some expired).1) e
  · exact h

theorem State.takeExpiries_restsOutsideRunning {s : State} (h : s.restsOutsideRunning) (n : Nat) :
    (s.takeExpiries n).restsOutsideRunning := by
  induction n generalizing s with
  | zero => exact h
  | succ n ih =>
    rw [State.takeExpiries_succ]
    exact ih (State.takeExpiry_restsOutsideRunning h)

theorem State.startSession_restsOutsideRunning (s : State) : s.startSession.restsOutsideRunning := by
  have running : State.restsOutsideRunning
      { s with eng := { s.eng with state := .running }, tb := { s.tb with runs := true } } :=
    State.restsOutsideRunning_of_running rfl
  simp only [State.startSession]
  split
  · exact running
  · exact State.takeExpiries_restsOutsideRunning running _

theorem State.offerHead_restsOutsideRunning {s : State} (h : s.restsOutsideRunning) (i : LaneId) :
    (s.offerHead i).restsOutsideRunning := by
  unfold State.offerHead
  split
  · simp only [State.takeHead]
    split
    · next late => exact State.handleEntry_restsOutsideRunning late.1 _
    · exact h
  · exact h

theorem State.settleCalendar_restsOutsideRunning {s : State} (h : s.restsOutsideRunning) (n : Nat) :
    (s.settleCalendar n).restsOutsideRunning := by
  induction n generalizing s with
  | zero => exact h
  | succ n ih =>
    unfold State.settleCalendar
    split
    · exact ih (State.takeExpiry_restsOutsideRunning h)
    · split
      · exact ih (State.offerHead_restsOutsideRunning h _)
      · exact h

theorem State.takeArrival_restsOutsideRunning {s : State} (h : s.restsOutsideRunning) (ch : ChanId) (level : Level) :
    (s.takeArrival ch level).restsOutsideRunning := by
  intro other
  have rests := h (by simpa using other)
  simp only [State.takeArrival]
  split
  · have sampled : ((s.chan ch).arrival ch s.now level).1.resting := by
      rw [Channel.arrival_of_resting (rests ch)]
      exact rests ch
    exact State.eachChannel_of_chans_eq (by simp)
      (State.eachChannel_setChan (s := { s with links := s.links ++ ((s.chan ch).arrival ch s.now level).2.1 }) rests ch
        sampled)
  · exact rests

theorem State.settleArrivals_restsOutsideRunning {s : State} (h : s.restsOutsideRunning) (l : List ChanId) :
    (s.settleArrivals l).restsOutsideRunning := by
  induction l generalizing s with
  | nil => exact h
  | cons ch rest ih => exact ih (State.takeArrival_restsOutsideRunning h ch _)

theorem State.takeFire_restsOutsideRunning {s : State} (h : s.restsOutsideRunning) (source target : ChanId) :
    (s.takeFire source target).restsOutsideRunning := by
  intro other
  have rests := h (by simpa using other)
  unfold State.takeFire
  split
  · refine State.eachChannel_setChan (by exact rests) target ?_
    rw [Channel.trigger_of_resting (rests target)]
    exact rests target
  · exact rests

theorem State.settleLinks_restsOutsideRunning {s : State} (h : s.restsOutsideRunning) (l : List LinkDelivery) :
    (s.settleLinks l).restsOutsideRunning := by
  induction l generalizing s with
  | nil => exact h
  | cons d rest ih =>
    refine ih ?_
    unfold State.takeLink
    split
    · exact State.takeFire_restsOutsideRunning h _ _
    · exact State.restsOutsideRunning_of_eq h (by simp) (by simp)
    · exact h

theorem State.takeEngineReset_restsOutsideRunning {s : State} (h : s.restsOutsideRunning) :
    s.takeEngineReset.restsOutsideRunning := by
  unfold State.takeEngineReset
  split
  · exact fun _ => State.eachChannel_reset (.inl rfl) rfl
  · exact h

theorem State.fatalFault_restsOutsideRunning (s : State) (code : FatalFault) (a : Word) :
    (s.fatalFault code a).restsOutsideRunning :=
  State.restsOutsideRunning_of_stopped (s.fatalFault_chans code a)

theorem State.takeTimebaseEnd_restsOutsideRunning {s : State} (h : s.restsOutsideRunning) :
    s.takeTimebaseEnd.restsOutsideRunning := by
  unfold State.takeTimebaseEnd
  split
  · exact s.fatalFault_restsOutsideRunning _ _
  · exact h

theorem State.beginTick_restsOutsideRunning {s : State} (h : s.restsOutsideRunning) : s.beginTick.restsOutsideRunning := by
  intro other ch
  have rests := h (by simpa [State.beginTick] using other) ch
  simp only [State.beginTick, State.chan_mapChans]
  exact rests

theorem State.takeTick_restsOutsideRunning {s : State} (h : s.restsOutsideRunning) : s.takeTick.restsOutsideRunning := by
  have settled := State.settleCalendar_restsOutsideRunning (State.takeEngineReset_restsOutsideRunning h)
    (s.takeEngineReset.cal.length + 12)
  have ended : s.finishTick.restsOutsideRunning := by
    unfold State.finishTick
    refine State.takeTimebaseEnd_restsOutsideRunning (State.restsOutsideRunning_of_eq
      (State.settleLinks_restsOutsideRunning (State.settleArrivals_restsOutsideRunning
        (State.restsOutsideRunning_of_eq settled ?_ ?_) _) _) (by simp; rfl) (by simp)) <;> simp
  exact State.beginTick_restsOutsideRunning (State.restsOutsideRunning_of_eq ended (by simp) (by simp))

theorem State.engineAnswer_restsOutsideRunning {s : State} (held : s.timebaseHeld) (h : s.restsOutsideRunning)
    (a : Answer) : (s.engineAnswer a).restsOutsideRunning := by
  have notRunning : s.eng.task.isRead = true → s.eng.state ≠ .running := fun read => by simp [held.2.2.2 read]
  refine State.engineAnswer_keeps (fun _ => h) h
    (fun read _ => State.restsOutsideRunning_of_eq h (by simp) fun _ => notRunning read) (fun _ _ => h) ?_
    (fun _ _ _ => h) (fun _ _ => State.restsOutsideRunning_of_eq h (by simp) ?_)
  · intro _ cb su _ _ ch
    simp [State.setUpSession, State.chan, Channel.prepared, Channel.resting, Channel.reset]
  · intro other running
    simp [State.finishSummary, running] at other

theorem State.afterAnswer_restsOutsideRunning {s : State} (h : s.restsOutsideRunning) :
    s.afterAnswer.restsOutsideRunning := by
  unfold State.afterAnswer
  split
  · next preparing =>
    exact State.restsOutsideRunning_of_eq h (by simp) fun _ => by simp_all
  · exact h

theorem State.answer_restsOutsideRunning {s : State} (held : s.timebaseHeld) (h : s.restsOutsideRunning) (r : Requester)
    (rq : Request) (a : Answer) : (s.answer r rq a).restsOutsideRunning := by
  cases r <;> refine State.afterAnswer_restsOutsideRunning ?_
  · exact State.restsOutsideRunning_of_eq h (by simp) (by simp)
  · exact State.writerAnswer_keeps (fun _ => h) (fun _ _ => h)
      (fun _ d => State.restsOutsideRunning_of_eq h (by simp) (by simp)) fun _ =>
      State.pathFailure_keeps (by exact h) (fun _ _ _ => State.fatalFault_restsOutsideRunning _ _ _) fun _ => by exact h
  · exact State.engineAnswer_restsOutsideRunning held h a

theorem State.present_restsOutsideRunning {s : State} (held : s.timebaseHeld) (h : s.restsOutsideRunning) (r : Requester)
    (rq : Request) : (s.present r rq).restsOutsideRunning := by
  unfold State.present
  split
  · exact h
  · exact State.answer_restsOutsideRunning held h _ _ _

theorem State.takeAbort_restsOutsideRunning {s : State} (h : s.restsOutsideRunning) : s.takeAbort.restsOutsideRunning := by
  unfold State.takeAbort
  split
  · next preparing => exact State.restsOutsideRunning_of_eq h (by simp) fun _ => by simp [preparing]
  · exact State.restsOutsideRunning_of_stopped s.abortSession_chans

theorem State.beginPrepare_restsOutsideRunning {s : State} (h : s.restsOutsideRunning)
    (between : s.betweenSessions = true) : s.beginPrepare.restsOutsideRunning := by
  refine State.restsOutsideRunning_of_eq h ?_ fun _ running => ?_
  · simp only [State.beginPrepare]
    split <;> simp
  · simp [State.betweenSessions, running] at between

theorem exec_keeps_restsOutsideRunning {s : State} (held : s.timebaseHeld) (c : Instr) (t : State)
    (h : s.restsOutsideRunning) (run : exec c s = .next t) : t.restsOutsideRunning := by
  have same : ∀ u : State, u.chans = s.chans ∧ u.eng.state = s.eng.state → u.restsOutsideRunning := fun u e =>
    State.restsOutsideRunning_of_eq h e.1 (by rw [e.2]; exact id)
  have expiry := State.takeExpiry_restsOutsideRunning h
  cases c with simp only [exec] at run
  | prepare =>
    exact act_keeps run h
      (State.command_keeps (fun _ => h) fun between _ => State.beginPrepare_restsOutsideRunning h between)
  | startCommand =>
    exact act_keeps run h (State.command_keeps (fun _ => h) fun _ _ => State.startSession_restsOutsideRunning _)
  | stopCommand =>
    exact act_keeps run h (State.command_keeps (fun _ => h) fun _ _ =>
      State.restsOutsideRunning_of_stopped (State.beginDrain_chans _ _))
  | abort =>
    exact act_keeps run h (State.command_keeps (fun _ => h) fun _ _ => State.takeAbort_restsOutsideRunning (by exact h))
  | unknownCommand => exact act_keeps run h (by split <;> exact h)
  | deviceReset =>
    cases run
    exact fun _ => State.eachChannel_reset (.inl rfl) rfl
  | deviceResetEnd =>
    cases run
    exact same _ (by simp)
  | engineReset => exact act_keeps run h (State.takeEngineReset_restsOutsideRunning h)
  | startLineEdge level =>
    refine act_keeps run h ?_
    simp only [State.sampleStart]
    (repeat' split) <;> first | exact h | exact State.startSession_restsOutsideRunning _
  | timebaseTick => exact act_keeps run h (State.takeTick_restsOutsideRunning h)
  | timebaseEnd => exact act_keeps run h (State.takeTimebaseEnd_restsOutsideRunning h)
  | tickArrival ch level => exact act_keeps run h (State.takeArrival_restsOutsideRunning (by exact h) ch level)
  | expiry => exact act_keeps run h expiry
  | laneHeadOffer i => exact act_keeps run h (State.offerHead_restsOutsideRunning h i)
  | set | start | stop | pause | resume | stage | fire | snapshot | powerOn | powerOff | reference | convert | note
  | closePage | endCue => exact act_keeps run h (State.takeCue_keeps h expiry _)
  | fireLinkDelivery source target => exact act_keeps run h (State.takeFire_restsOutsideRunning h source target)
  | requestPresent r =>
    exact act_keeps run h (State.presentRequest_keeps h (fun _ => same _ (by simp))
      (fun _ _ _ _ _ => State.present_restsOutsideRunning (by exact held) (by exact h) _ _)
      (fun _ _ _ _ _ => State.present_restsOutsideRunning (by exact held) (by exact h) _ _)
      fun _ _ _ => State.present_restsOutsideRunning held h _ _)
  | response =>
    exact act_keeps run h (State.takeResponse_keeps h fun _ _ =>
      State.answer_restsOutsideRunning (by exact held) (by exact h) _ _ _)
  | timeout =>
    exact act_keeps run h (State.takeTimeout_keeps h fun _ _ =>
      State.answer_restsOutsideRunning (by exact held) (by exact h) _ _ _)
  | initialFetchComplete =>
    refine act_keeps run h (State.restsOutsideRunning_of_eq h (by simp) fun other running => ?_)
    simp [State.takeInitialFetchComplete, State.initialFetchDone, State.initialFetch, running] at other
  | drainLimitExpiry =>
    refine act_keeps run h (same _ ⟨by simp, ?_⟩)
    unfold State.takeDrainLimitExpiry State.takeDrainLimit
    split <;> simp
  | _ => exact act_keeps run h (same _
      (by simp [State.writeAlert, State.writeEnable, State.readTimeLo, State.takeAccept, State.eng_setResult]))

theorem exec_keeps_channelsRest {s : State} (held : s.timebaseHeld) (h : s.channelsRest) {c : Instr} {t : State}
    (run : exec c s = .next t) : t.channelsRest := by
  have level := exec_keeps_eachChannel channelKept_atRestLevel c t (fun ch => (h ch).1) run
  have rests := exec_keeps_restsOutsideRunning held c t (fun other ch => (h ch).2 other) run
  exact fun ch => ⟨level ch, fun other => rests other ch⟩

/-- Settles O56: a started channel is one of RUNNING, and every way out of RUNNING stops the channels at their rest
level. -/
theorem stepKeepsChannelsAtRest : Obligations.StepKeepsChannelsAtRest := fun _ _ held rest run =>
  (step_keeps (P := fun s => s.timebaseHeld ∧ s.channelsRest) (fun _ _ h => h)
    (fun c s t h run => ⟨exec_keeps_timebaseHeld c s t h.1 run, exec_keeps_channelsRest h.1 h.2 run⟩)
    ⟨held, rest⟩ run).2

end Sys2Proof.Machine
end

section
/-! PROOFS. What the Calendar keeps (R13 to R16): every command leaves some of its entries in their order, or puts an entry
into its place while one is free. -/

namespace Sys2Proof.Machine

/-- A property that holds of fewer entries too, and of one entry more in its place while a place is free. -/
structure CalendarKept (Q : List Entry → Prop) : Prop where
  sublist : ∀ {l l' : List Entry}, Q l → l'.Sublist l → Q l'
  insert : ∀ {l : List Entry} (e : Entry), Q l → l.length < 48 → Q (insertEntry e l)

/-! ## What the stop of a session, a dispatch and a head taken do to the Calendar -/

theorem State.beginDrain_cal (s : State) (c : EndCause) : (s.beginDrain c).cal = [] := (s.beginDrain_spec c).1

theorem State.fatalFault_cal (s : State) (code : FatalFault) (a : Word) : (s.fatalFault code a).cal = [] := by
  cases code <;> simp [State.fatalFault, State.stopBlocks_cal]

theorem State.abortSession_cal (s : State) : s.abortSession.cal = [] := by
  simp [State.abortSession, State.stopBlocks_cal]

theorem State.dispatch_cal (s : State) (e : Entry) (l : Option Half) :
    (s.dispatch e l).cal = s.cal ∨ (s.dispatch e l).cal = [] := by
  simp only [State.dispatch]
  split
  case h_5 =>
    simp only [State.dispatchEnd]
    split
    · exact .inl (by simp)
    · exact .inr (State.beginDrain_cal _ _)
  all_goals exact .inl (by simp)

theorem State.handleEntry_cal (s : State) (e : Entry) :
    (s.handleEntry e).cal = s.cal ∨ (s.handleEntry e).cal = [] := by
  simp only [State.handleEntry]
  split
  · exact .inl (by simp)
  · exact s.dispatch_cal e _

theorem State.handleEntry_cal_sublist (s : State) (e : Entry) : (s.handleEntry e).cal.Sublist s.cal := by
  rcases s.handleEntry_cal e with same | empty
  · rw [same]
  · rw [empty]
    exact List.nil_sublist _

theorem State.takeExpiry_cal_sublist (s : State) : s.takeExpiry.cal.Sublist s.cal := by
  unfold State.takeExpiry
  split
  · exact (State.handleEntry_cal_sublist _ _).trans (List.tail_sublist _)
  · exact List.Sublist.refl _

theorem State.takeExpiries_cal_sublist (s : State) (n : Nat) : (s.takeExpiries n).cal.Sublist s.cal := by
  induction n generalizing s with
  | zero => exact List.Sublist.refl _
  | succ n ih =>
    rw [State.takeExpiries_succ]
    exact (ih _).trans s.takeExpiry_cal_sublist

/-- A head is taken only where an entry is free (R13, R15). -/
theorem State.length_cal_of_headTaken {s : State} {i : LaneId} {x : Head × Cue} (h : s.headTaken i = some x) :
    s.cal.length < 48 := by
  have offered : s.offeredHead i = some x := by
    unfold State.headTaken at h
    split at h
    · exact h
    · cases h
  by_contra full
  have none := State.headTaken_eq_none (s := s) (i := i) (h := x.1) (c := x.2) offered (.inl (by omega))
  rw [none] at h
  cases h

section
variable {Q : List Entry → Prop} (kept : CalendarKept Q) {s : State}
include kept

theorem State.takeHead_cal_keeps (h : Q s.cal) (room : s.cal.length < 48) (i : LaneId) (head : Head) (c : Cue) :
    Q (s.takeHead i head c).cal := by
  simp only [State.takeHead]
  split
  · exact kept.sublist h (State.handleEntry_cal_sublist _ _)
  · exact kept.insert _ h room

theorem State.offerHead_cal_keeps (h : Q s.cal) (i : LaneId) : Q (s.offerHead i).cal := by
  unfold State.offerHead
  split
  · next taken => exact State.takeHead_cal_keeps kept h (State.length_cal_of_headTaken taken) i _ _
  · exact h

theorem State.settleCalendar_cal_keeps (h : Q s.cal) (n : Nat) : Q (s.settleCalendar n).cal := by
  induction n generalizing s with
  | zero => exact h
  | succ n ih =>
    unfold State.settleCalendar
    split
    · exact ih (kept.sublist h s.takeExpiry_cal_sublist)
    · split
      · exact ih (State.offerHead_cal_keeps kept h _)
      · exact h

theorem State.takeEngineReset_cal_keeps (h : Q s.cal) : Q s.takeEngineReset.cal := by
  unfold State.takeEngineReset
  split
  · exact kept.sublist h (List.nil_sublist _)
  · exact h

theorem State.takeTimebaseEnd_cal_keeps (h : Q s.cal) : Q s.takeTimebaseEnd.cal := by
  unfold State.takeTimebaseEnd
  split
  · rw [State.fatalFault_cal]
    exact kept.sublist h (List.nil_sublist _)
  · exact h

theorem State.takeTick_cal_keeps (h : Q s.cal) : Q s.takeTick.cal := by
  have settled := State.settleCalendar_cal_keeps kept (State.takeEngineReset_cal_keeps kept h)
    (s.takeEngineReset.cal.length + 12)
  have ended : Q s.finishTick.cal := by
    unfold State.finishTick
    exact State.takeTimebaseEnd_cal_keeps kept (by simpa using settled)
  have same : s.takeTick.cal = s.finishTick.cal := by simp [State.takeTick, State.beginTick]
  rwa [same]

theorem State.engineAnswer_cal_keeps (h : Q s.cal) (a : Answer) : Q (s.engineAnswer a).cal :=
  State.engineAnswer_keeps (P := fun t => Q t.cal) (fun _ => h) h (fun _ _ => by simpa using h) (fun _ _ => h)
    (fun _ _ _ _ => kept.sublist h (List.nil_sublist _)) (fun _ _ _ => h) fun _ _ => by simpa using h

theorem State.answer_cal_keeps (h : Q s.cal) (r : Requester) (rq : Request) (a : Answer) : Q (s.answer r rq a).cal := by
  have after : ∀ u : State, u.afterAnswer.cal = u.cal := fun u => by
    unfold State.afterAnswer
    split <;> simp
  cases r <;> simp only [State.answer, after]
  · simpa using h
  · exact State.writerAnswer_keeps (P := fun t => Q t.cal) (fun _ => h) (fun _ _ => h) (fun _ _ => by simpa using h)
      fun _ => State.pathFailure_keeps (P := fun t => Q t.cal) h
        (fun _ _ _ => by rw [State.fatalFault_cal]; exact kept.sublist h (List.nil_sublist _)) fun _ => h
  · exact State.engineAnswer_cal_keeps kept h a

theorem State.present_cal_keeps (h : Q s.cal) (r : Requester) (rq : Request) : Q (s.present r rq).cal := by
  unfold State.present
  split
  · exact h
  · exact State.answer_cal_keeps kept h _ _ _

theorem State.takeAbort_cal_keeps (h : Q s.cal) : Q s.takeAbort.cal := by
  have empty : Q [] := kept.sublist h (List.nil_sublist _)
  unfold State.takeAbort
  split
  · simp only [State.abortPreparation, State.prepareAbortEnd_frame]
    split
    · exact empty
    · exact h
  · rw [State.abortSession_cal]
    exact empty

theorem exec_keeps_cal {c : Instr} {t : State} (h : Q s.cal) (run : exec c s = .next t) : Q t.cal := by
  have same : ∀ u : State, u.cal = s.cal → Q u.cal := fun u e => e ▸ h
  have fewer : ∀ u : State, u.cal.Sublist s.cal → Q u.cal := fun u less => kept.sublist h less
  cases c with simp only [exec] at run
  | prepare =>
    refine act_keeps (P := fun t => Q t.cal) run h
      (State.command_keeps (P := fun t => Q t.cal) (fun _ => h) fun _ _ => same _ ?_)
    simp only [State.beginPrepare]
    split <;> simp
  | startCommand =>
    refine act_keeps (P := fun t => Q t.cal) run h
      (State.command_keeps (P := fun t => Q t.cal) (fun _ => h) fun _ _ => fewer _ ?_)
    simp only [State.startSession]
    split
    · exact List.Sublist.refl _
    · exact State.takeExpiries_cal_sublist _ _
  | stopCommand =>
    exact act_keeps (P := fun t => Q t.cal) run h
      (State.command_keeps (P := fun t => Q t.cal) (fun _ => h) fun _ _ =>
        fewer _ (by rw [State.takeStop, State.beginDrain_cal]; exact List.nil_sublist _))
  | abort =>
    exact act_keeps (P := fun t => Q t.cal) run h
      (State.command_keeps (P := fun t => Q t.cal) (fun _ => h) fun _ _ => State.takeAbort_cal_keeps kept h)
  | unknownCommand => exact act_keeps (P := fun t => Q t.cal) run h (by split <;> exact h)
  | deviceReset =>
    cases run
    exact fewer _ (List.nil_sublist _)
  | deviceResetEnd =>
    cases run
    exact same _ (by simp)
  | engineReset => exact act_keeps (P := fun t => Q t.cal) run h (State.takeEngineReset_cal_keeps kept h)
  | startLineEdge level =>
    refine act_keeps (P := fun t => Q t.cal) run h (fewer _ ?_)
    simp only [State.sampleStart, State.startSession]
    (repeat' split) <;> first | exact List.Sublist.refl _ | exact State.takeExpiries_cal_sublist _ _
  | timebaseTick => exact act_keeps (P := fun t => Q t.cal) run h (State.takeTick_cal_keeps kept h)
  | timebaseEnd => exact act_keeps (P := fun t => Q t.cal) run h (State.takeTimebaseEnd_cal_keeps kept h)
  | expiry => exact act_keeps (P := fun t => Q t.cal) run h (fewer _ s.takeExpiry_cal_sublist)
  | laneHeadOffer i => exact act_keeps (P := fun t => Q t.cal) run h (State.offerHead_cal_keeps kept h i)
  | set | start | stop | pause | resume | stage | fire | snapshot | powerOn | powerOff | reference | convert | note
  | closePage | endCue =>
    exact act_keeps (P := fun t => Q t.cal) run h
      (State.takeCue_keeps (P := fun t => Q t.cal) h (fewer _ s.takeExpiry_cal_sublist) _)
  | requestPresent r =>
    exact act_keeps (P := fun t => Q t.cal) run h
      (State.presentRequest_keeps (P := fun t => Q t.cal) h (fun _ => same _ (by simp))
        (fun _ _ _ _ _ => State.present_cal_keeps kept (by exact h) _ _)
        (fun _ _ _ _ _ => State.present_cal_keeps kept (by exact h) _ _)
        fun _ _ _ => State.present_cal_keeps kept h _ _)
  | response =>
    exact act_keeps (P := fun t => Q t.cal) run h
      (State.takeResponse_keeps (P := fun t => Q t.cal) h fun _ _ => State.answer_cal_keeps kept (by exact h) _ _ _)
  | timeout =>
    exact act_keeps (P := fun t => Q t.cal) run h
      (State.takeTimeout_keeps (P := fun t => Q t.cal) h fun _ _ => State.answer_cal_keeps kept (by exact h) _ _ _)
  | _ => exact act_keeps (P := fun t => Q t.cal) run h (same _
      (by simp [State.writeAlert, State.writeEnable, State.readTimeLo, State.takeAccept]))

end

theorem calendarKept_order : CalendarKept fun l => l.Pairwise fun a b => b.before a = false where
  sublist order less := order.sublist less
  insert e order _ := insertEntry_ordered e order

theorem calendarKept_places : CalendarKept fun l => l.length ≤ 48 where
  sublist places less := less.length_le.trans places
  insert e _ room := by simpa using room

theorem exec_keeps_calendarInOrder (c : Instr) (s t : State) (h : s.calendarInOrder) (run : exec c s = .next t) :
    t.calendarInOrder :=
  exec_keeps_cal calendarKept_order h run

/-- Calendar order spelled out (R14). -/
theorem State.calendarInOrder_iff (s : State) :
    s.calendarInOrder ↔ s.cal.Pairwise fun a b => ¬ (b.cue.due.toNat < a.cue.due.toNat ∨
      (b.cue.due = a.cue.due ∧ (b.lane < a.lane ∨ (b.lane = a.lane ∧ b.seq.toNat < a.seq.toNat)))) := by
  simp only [State.calendarInOrder, ← Entry.before_iff, Bool.not_eq_true]

/-- Settles O55: an entry is put in its place, and every other command leaves some of the entries in their order. -/
theorem stepKeepsCalendarOrder : Obligations.StepKeepsCalendarOrder :=
  ⟨fun _ _ order run => step_keeps (fun _ _ h => h) exec_keeps_calendarInOrder order run, State.calendarInOrder_iff⟩

end Sys2Proof.Machine
end

section
/-! PROOFS. What the Result Writer keeps (R124, R144, Tables 6-2 and 6-3): a property that each change of the writer keeps is
kept by every command; the writer's access, page and queue fit its state after every step. -/

namespace Sys2Proof.Machine

/-! ## A property of the writer -/

/-- A task of the taking of a slot: the table, the rejections, the FILLING write. -/
def WriterTask.takes : WriterTask → Bool
  | .table _ | .reject _ _ | .fill _ => true
  | .none | .record _ | .faultRecord | .header _ | .closed _ => false

/-- A task of an open page: a record, the fault record, the two writes of a close. -/
def WriterTask.fills : WriterTask → Bool
  | .record _ | .faultRecord | .header _ | .closed _ => true
  | .none | .table _ | .reject _ _ | .fill _ => false

/-- Every change of the writer keeps the property, which looks at its state, its task, its page and its queue alone. -/
structure WriterKept (Q : Writer → Prop) : Prop where
  congr : ∀ {w v : Writer}, Q w → v.state = w.state → v.task = w.task → v.page = w.page → v.queue = w.queue → Q v
  join : ∀ {w : Writer} (x : Item), Q w → w.queue.length < 32 → w.state ≠ .done → Q { w with queue := w.queue ++ [x] }
  drop : ∀ {w : Writer}, Q w → Q { w with queue := w.queue.tail }
  discard : ∀ {w : Writer}, Q w → Q { w with queue := [] }
  stop : ∀ {w : Writer}, Q w → Q { w with queue := [], state := .done, task := .none }
  rest : ∀ {w : Writer}, Q w → Q { w with task := .none }
  take : ∀ {w : Writer} {task : WriterTask}, Q w → w.task.takes = true ∨ w.state = .idle ∨ w.state = .starved →
    task.takes = true → Q { w with task := task }
  fill : ∀ {w : Writer} {task : WriterTask}, Q w → w.task.fills = true ∨ w.state = .opened →
    task.fills = true → Q { w with task := task }
  wrote : ∀ {w : Writer} (f : Page → Page), Q w → Q { w with page := w.page.map f }
  close : ∀ {w : Writer}, Q w → Q { w with page := none, task := .none, state := .idle }
  open_ : ∀ {w : Writer} (p : Page), Q w → Q { w with page := some p, task := .none, state := .opened }
  starve : ∀ {w : Writer}, Q w → w.task.takes = true → Q { w with task := .none, state := .starved }
  reset : Q Writer.reset

/-- An offer leaves the task of an access in progress. -/
theorem Writer.offer_task {w : Writer} (now : Tick) (r : Rec) (busy : w.task ≠ .none) : (w.offer now r).task = w.task := by
  unfold Writer.offer Writer.decideClose
  split
  · split
    · next idle _ _ => exact absurd idle busy
    · rfl
  · rfl

section
variable {Q : Writer → Prop} (kept : WriterKept Q) {w : Writer} {s : State}
include kept

/-! ## The writer's own changes -/

theorem Writer.beginClose_keeps (h : Q w) (opens : w.task.fills = true ∨ w.state = .opened) (cause : CloseCause)
    (now : Tick) (m : Option CloseMarker) : Q (w.beginClose cause now m) :=
  kept.congr (kept.fill (task := (w.beginClose cause now m).task) h opens rfl) rfl rfl rfl rfl

theorem Writer.decideClose_keeps (h : Q w) (now : Tick) : Q (w.decideClose now) := by
  unfold Writer.decideClose
  split
  · next opened _ =>
    (repeat' split) <;> first | exact h | exact Writer.beginClose_keeps kept h (.inr opened) _ _ _
  · exact h

theorem Writer.lose_keeps (h : Q w) (n : Nat) : Q (w.lose n) := kept.congr h rfl rfl rfl rfl

theorem Writer.offer_keeps (h : Q w) (now : Tick) (r : Rec) : Q (w.offer now r) := by
  unfold Writer.offer
  split
  · next keeps =>
    simp only [Bool.and_eq_true, Writer.keeps, bne_iff_ne] at keeps
    exact Writer.decideClose_keeps kept (kept.join _ h (of_decide_eq_true keeps.2) keeps.1.1) now
  · exact Writer.lose_keeps kept h 1

theorem Writer.stop_keeps (h : Q w) : Q w.stop := kept.congr (kept.stop h) rfl rfl rfl rfl

theorem Writer.discardQueue_keeps (h : Q w) : Q w.discardQueue := kept.congr (kept.discard h) rfl rfl rfl rfl

/-! ## Records offered -/

theorem State.offerAll_wr_keeps (h : Q s.wr) (l : List Rec) : Q (s.offerAll l).wr := by
  induction l generalizing s with
  | nil => exact h
  | cons r rest ih => exact ih (Writer.offer_keeps kept h s.now r)

theorem State.laneFault_wr_keeps (h : Q s.wr) (i : LaneId) (c : LaneFaultCause) (a : Word) :
    Q (s.laneFault i c a).wr := Writer.offer_keeps kept h _ _

theorem State.moveOn_wr_keeps (h : Q s.wr) (i : LaneId) : Q (s.moveOn i).wr := by
  unfold State.moveOn
  simp only
  (repeat' split) <;> first | exact h | exact State.laneFault_wr_keeps kept h _ _ _

theorem State.headerRead_wr_keeps (h : Q s.wr) (i : LaneId) (d : SegmentHeader) : Q (s.headerRead i d).wr := by
  have faulted := State.laneFault_wr_keeps kept h i
  unfold State.headerRead
  simp only
  (repeat' split) <;> first | exact h | exact faulted _ _ | exact State.moveOn_wr_keeps kept (by exact h) i

theorem State.fetchCue_wr_keeps (h : Q s.wr) (i : LaneId) (d : BusData) : Q (s.fetchCue i d).wr := by
  have rejected : ∀ o c, Q (s.rejectCue i d o c).wr := fun _ _ => Writer.offer_keeps kept h _ _
  unfold State.fetchCue
  refine State.moveOn_wr_keeps kept ?_ i
  (repeat' split) <;> first | exact rejected _ _ | exact h

theorem State.laneEnded_wr_keeps (h : Q s.wr) (i : LaneId) : Q (s.laneEnded i).wr := by
  unfold State.laneEnded
  simp only
  split
  · exact Writer.offer_keeps kept h _ _
  · exact h

theorem State.statusWritten_wr_keeps (h : Q s.wr) (i : LaneId) : Q (s.statusWritten i).wr := by
  unfold State.statusWritten
  simp only
  (repeat' split)
  · exact h
  · exact State.laneFault_wr_keeps kept (by exact h) _ _ _
  · exact State.laneEnded_wr_keeps kept (by exact h) _

theorem State.laneAnswer_wr_keeps (h : Q s.wr) (acc : LaneAccess) (a : Answer) : Q (s.laneAnswer acc a).wr := by
  have faulted := State.laneFault_wr_keeps kept h acc.lane
  unfold State.laneAnswer
  simp only
  (repeat' split) <;> first
    | exact h
    | exact faulted _ _
    | exact State.statusWritten_wr_keeps kept h _
    | exact State.headerRead_wr_keeps kept h _ _
    | exact State.fetchCue_wr_keeps kept h _ _

theorem State.loaderAnswer_wr_keeps (h : Q s.wr) (a : Answer) : Q (s.loaderAnswer a).wr := by
  unfold State.loaderAnswer
  simp only
  (repeat' split) <;> first | exact h | exact State.laneAnswer_wr_keeps kept (by exact h) _ _

theorem State.offered_wr_keeps {v : Writer} (h : Q w) (now : Tick) (l : List Rec) (same : v = w.offered now l) : Q v := by
  rw [same]
  clear same
  induction l generalizing w with
  | nil => exact h
  | cons r rest ih => exact ih (Writer.offer_keeps kept h now r)

theorem State.stopBlocks_wr_keeps (h : Q s.wr) : Q s.stopBlocks.wr :=
  State.offered_wr_keeps kept h _ _ s.stopBlocks_wr

theorem State.restartStarveCount_wr_keeps (h : Q s.wr) : Q s.restartStarveCount.wr := by
  unfold State.restartStarveCount
  split
  · exact kept.congr h rfl rfl rfl rfl
  · exact h

theorem State.drainConverter_wr_keeps (h : Q s.wr) : Q s.drainConverter.wr := by
  simp only [State.drainConverter]
  exact State.offerAll_wr_keeps kept (by exact h) _

theorem State.cancelCues_wr_keeps (h : Q s.wr) : Q s.cancelCues.wr := State.offered_wr_keeps kept h _ _ s.cancelCues_wr

theorem State.beginDrain_wr_keeps (h : Q s.wr) (c : EndCause) : Q (s.beginDrain c).wr := by
  simp only [State.beginDrain]
  refine State.restartStarveCount_wr_keeps kept (State.drainConverter_wr_keeps kept ?_)
  rw [State.wr_stopChannels]
  exact State.cancelCues_wr_keeps kept h

theorem State.retireEntry_wr_keeps (h : Q s.wr) (e : Entry) (o : CueOutcome) (l : Option Half) :
    Q (s.retireEntry e o l).wr := by
  simp only [State.retireEntry, State.retireAlerts_frame]
  split
  · exact Writer.offer_keeps kept h _ _
  · exact h

theorem State.dispatchClosePage_wr_keeps (h : Q s.wr) (e : Entry) (l : Option Half) :
    Q (s.dispatchClosePage e l).wr := by
  simp only [State.dispatchClosePage]
  split
  · next place =>
    simp only [State.retireAlerts_frame, State.wr_retire]
    split
    · next keeps =>
      simp only [Writer.keeps, Bool.and_eq_true, bne_iff_ne] at keeps
      exact kept.join _ h (of_decide_eq_true place) keeps.1
    · exact h
  · exact State.retireEntry_wr_keeps kept h _ _ _

theorem State.dispatch_wr_keeps (h : Q s.wr) (e : Entry) (l : Option Half) : Q (s.dispatch e l).wr := by
  have retired := fun (u : State) (hu : Q u.wr) o => State.retireEntry_wr_keeps kept hu e o l
  simp only [State.dispatch]
  split
  · exact retired _ (State.offerAll_wr_keeps kept (by exact h) _) _
  · exact retired _ (State.offerAll_wr_keeps kept (by exact h) _) _
  · exact retired _ (Writer.offer_keeps kept h _ _) _
  · exact State.dispatchClosePage_wr_keeps kept h e l
  · simp only [State.dispatchEnd]
    split
    · exact retired s h _
    · exact State.beginDrain_wr_keeps kept (retired s h _) _

theorem State.handleEntry_wr_keeps (h : Q s.wr) (e : Entry) : Q (s.handleEntry e).wr := by
  simp only [State.handleEntry]
  split
  · exact State.retireEntry_wr_keeps kept h _ _ _
  · exact State.dispatch_wr_keeps kept h e _

theorem State.takeExpiry_wr_keeps (h : Q s.wr) : Q s.takeExpiry.wr := by
  unfold State.takeExpiry
  split
  · exact State.handleEntry_wr_keeps kept (by exact h) _
  · exact h

theorem State.takeExpiries_wr_keeps (h : Q s.wr) (n : Nat) : Q (s.takeExpiries n).wr := by
  induction n generalizing s with
  | zero => exact h
  | succ n ih =>
    rw [State.takeExpiries_succ]
    exact ih (State.takeExpiry_wr_keeps kept h)

theorem State.startSession_wr_keeps (h : Q s.wr) : Q s.startSession.wr := by
  simp only [State.startSession]
  split
  · exact h
  · exact State.takeExpiries_wr_keeps kept (by exact h) _

theorem State.offerHead_wr_keeps (h : Q s.wr) (i : LaneId) : Q (s.offerHead i).wr := by
  unfold State.offerHead
  split
  · simp only [State.takeHead]
    split
    · exact State.handleEntry_wr_keeps kept (by exact h) _
    · exact h
  · exact h

theorem State.settleCalendar_wr_keeps (h : Q s.wr) (n : Nat) : Q (s.settleCalendar n).wr := by
  induction n generalizing s with
  | zero => exact h
  | succ n ih =>
    unfold State.settleCalendar
    split
    · exact ih (State.takeExpiry_wr_keeps kept h)
    · split
      · exact ih (State.offerHead_wr_keeps kept h _)
      · exact h

theorem State.takeArrival_wr_keeps (h : Q s.wr) (ch : ChanId) (level : Level) : Q (s.takeArrival ch level).wr := by
  simp only [State.takeArrival]
  split
  · exact State.offerAll_wr_keeps kept (by exact h) _
  · exact h

theorem State.settleArrivals_wr_keeps (h : Q s.wr) (l : List ChanId) : Q (s.settleArrivals l).wr := by
  induction l generalizing s with
  | nil => exact h
  | cons ch rest ih => exact ih (State.takeArrival_wr_keeps kept h ch _)

theorem State.takeLinkRequest_wr_keeps (h : Q s.wr) (source : ChanId) : Q (s.takeLinkRequest source).wr := by
  simp only [State.takeLinkRequest]
  (repeat' split) <;> first | exact h | exact State.offerAll_wr_keeps kept (by exact h) _

theorem State.settleLinks_wr_keeps (h : Q s.wr) (l : List LinkDelivery) : Q (s.settleLinks l).wr := by
  induction l generalizing s with
  | nil => exact h
  | cons d rest ih =>
    refine ih ?_
    unfold State.takeLink
    split
    · simpa using h
    · exact State.takeLinkRequest_wr_keeps kept h _
    · exact h

theorem State.takeConversionEnd_wr_keeps (h : Q s.wr) : Q s.takeConversionEnd.wr := by
  simp only [State.takeConversionEnd]
  (repeat' split) <;> first | exact h | exact State.offerAll_wr_keeps kept (by exact h) _

/-! ## The writer's end, and the stop of a session -/

theorem State.writerComplete_wr_keeps (h : Q s.wr) : Q s.writerComplete.wr := Writer.stop_keeps kept h

theorem State.writerAbortEnd_wr_keeps (h : Q s.wr) : Q s.writerAbortEnd.wr := by
  unfold State.writerAbortEnd
  split
  · exact h
  · split
    · exact h
    · split
      · next opened _ =>
        split
        · exact Writer.beginClose_keeps kept h (.inr opened) _ _ _
        · exact State.writerComplete_wr_keeps kept h
      · exact State.writerComplete_wr_keeps kept h

theorem State.writerAbort_wr_keeps (h : Q s.wr) : Q s.writerAbort.wr := by
  have taken : Q { s.wr.discardQueue with aborting := true } :=
    kept.congr (Writer.discardQueue_keeps kept h) rfl rfl rfl rfl
  unfold State.writerAbort State.withdrawWriter
  (repeat' split) <;> first | exact h | exact taken | exact kept.rest taken

theorem State.abortSession_wr_keeps (h : Q s.wr) : Q s.abortSession.wr := by
  simp only [State.abortSession]
  refine State.writerAbortEnd_wr_keeps kept (State.stopBlocks_wr_keeps kept (State.writerAbort_wr_keeps kept ?_))
  simpa using h

theorem State.beginFlush_wr_keeps (h : Q s.wr) : Q s.beginFlush.wr := by
  have begun : Q { s.wr with faultRecord := some (timebaseFault s.now), flushing := true, endTaken := false } :=
    kept.congr h rfl rfl rfl rfl
  simp only [State.beginFlush]
  split
  · exact Writer.lose_keeps kept h 1
  · split
    · exact State.writerComplete_wr_keeps kept begun
    · exact Writer.decideClose_keeps kept begun _

theorem State.fatalFault_wr_keeps (h : Q s.wr) (code : FatalFault) (a : Word) : Q (s.fatalFault code a).wr := by
  have stopped : ∀ u : State, u.wr = s.wr → Q u.stopBlocks.wr := fun u same =>
    State.stopBlocks_wr_keeps kept (same ▸ h)
  simp only [State.fatalFault]
  split
  · refine State.beginFlush_wr_keeps kept (stopped _ ?_)
    simp
  · refine Writer.lose_keeps kept (stopped _ ?_) 1
    simp

theorem State.pathFailure_wr_keeps (h : Q s.wr) (a : Word) : Q (s.pathFailure a).wr := by
  have lost : Q s.pathLost.wr := kept.congr (Writer.stop_keeps kept h) rfl rfl rfl rfl
  exact State.pathFailure_keeps (P := fun t => Q t.wr) lost (fun _ _ _ => State.fatalFault_wr_keeps kept lost _ _)
    fun _ => lost

/-! ## The writer's accesses -/

theorem State.writerSettle_wr_keeps (h : Q s.wr) : Q s.writerSettle.wr := by
  have decided := Writer.decideClose_keeps kept h s.now
  simp only [State.writerSettle]
  split
  · exact State.writerComplete_wr_keeps kept decided
  · exact decided

theorem State.noSlot_wr_keeps (h : Q s.wr) (takes : s.wr.task.takes = true) : Q s.noSlot.wr := by
  have starved : Q s.becomeStarved.wr := kept.congr (kept.starve h takes) rfl rfl rfl rfl
  have failed : s.wr.state = .starved → Q s.rereadFailed.wr := fun state => by
    unfold State.rereadFailed
    split
    · exact kept.congr (kept.take (task := .table []) h (.inl takes) rfl) rfl rfl rfl rfl
    · exact kept.congr (kept.rest h) rfl rfl rfl rfl
    · exact kept.congr (kept.rest h) rfl rfl rfl rfl
  unfold State.noSlot
  (repeat' split) <;> first
    | exact State.writerComplete_wr_keeps kept h
    | exact failed (by assumption)
    | exact State.writerComplete_wr_keeps kept starved
    | exact starved

theorem State.afterRejects_wr_keeps (h : Q s.wr) (takes : s.wr.task.takes = true) (g : Option GoodSlot) :
    Q (s.afterRejects g).wr := by
  cases g with
  | some g => exact kept.take h (.inl takes) rfl
  | none => exact State.noSlot_wr_keeps kept h takes

theorem State.examine_wr_keeps (h : Q s.wr) (takes : s.wr.task.takes = true) (l : List SlotEntry) :
    Q (s.examine l).wr := by
  simp only [State.examine]
  split
  · exact State.afterRejects_wr_keeps kept h takes _
  · exact kept.take h (.inl takes) rfl

theorem State.closeComplete_wr_keeps (h : Q s.wr) (c : Closing) : Q (s.closeComplete c).wr := by
  have closed : Q { s.wr with page := none, task := .none, state := .idle } := kept.close h
  have limited : ∀ u : State, Q u.wr → Q (u.limitClose c).wr := fun u hu => by
    unfold State.limitClose
    (repeat' split) <;> exact Writer.stop_keeps kept hu
  simp only [State.closeComplete]
  split
  · split
    · exact State.offerAll_wr_keeps kept (limited _ closed) _
    · exact limited _ closed
  · refine State.writerSettle_wr_keeps kept ?_
    split
    · exact State.offerAll_wr_keeps kept (by exact closed) _
    · exact closed

theorem State.writerOkay_wr_keeps (h : Q s.wr) (d : BusData) : Q (s.writerOkay d).wr := by
  have aborted := fun (u : State) (hu : Q u.wr) => State.writerAbortEnd_wr_keeps kept hu
  unfold State.writerOkay
  cases task : s.wr.task with dsimp only
  | table es =>
    have takes : s.wr.task.takes = true := by rw [task]; rfl
    split
    · exact aborted s h
    · split
      · exact kept.take h (.inl takes) rfl
      · exact State.examine_wr_keeps kept h takes _
  | reject todo good =>
    have takes : s.wr.task.takes = true := by rw [task]; rfl
    cases todo with dsimp only
    | nil => exact State.afterRejects_wr_keeps kept h takes good
    | cons f todo =>
      have rejected := Writer.offer_keeps kept h s.now (.slotReject f.slot f.reason s.now)
      have takes' : (s.offer (.slotReject f.slot f.reason s.now)).wr.task.takes = true := by
        rw [State.wr_offer, Writer.offer_task _ _ (by rw [task]; simp)]
        exact takes
      split
      · exact aborted _ rejected
      · split
        · exact State.afterRejects_wr_keeps kept rejected takes' good
        · exact kept.take rejected (.inl takes') rfl
  | fill g =>
    split
    · exact aborted s h
    · exact State.writerSettle_wr_keeps kept (kept.congr (kept.open_ g.page h) rfl rfl rfl rfl)
  | record n =>
    have fills : s.wr.task.fills = true := by rw [task]; rfl
    have written : Q (s.recordWritten n).wr := kept.rest (kept.wrote _ (kept.drop h))
    split
    · exact aborted _ written
    · split
      · exact kept.congr (kept.wrote (·.wrote n s.now) (kept.drop
          (kept.fill (task := ((s.recordWritten n).wr.beginClose .deadline s.now none).task) h (.inl fills) rfl)))
          rfl rfl rfl rfl
      · exact State.writerSettle_wr_keeps kept written
  | faultRecord =>
    exact State.writerSettle_wr_keeps kept (kept.congr (kept.rest (kept.wrote (·.wrote 32 s.now) h)) rfl rfl rfl rfl)
  | header c => exact kept.fill h (.inl (by rw [task]; rfl)) rfl
  | closed c => exact State.closeComplete_wr_keeps kept h c
  | none => exact h

theorem State.writerAnswer_wr_keeps (h : Q s.wr) (a : Word) (ans : Answer) : Q (s.writerAnswer a ans).wr :=
  State.writerAnswer_keeps (P := fun t => Q t.wr) (fun _ => kept.rest h) (fun _ _ => h)
    (fun _ d => State.writerOkay_wr_keeps kept h d) fun _ => State.pathFailure_wr_keeps kept h a

/-! ## The writer's events -/

theorem State.writerScan_wr_keeps (h : Q s.wr) : Q s.writerReread.wr ∧ Q s.writerScan.wr := by
  have asked : Q s.writerReread.wr := by
    unfold State.writerReread
    split
    · next starved =>
      simp only [Bool.and_eq_true, beq_iff_eq] at starved
      unfold Writer.askReread
      (repeat' split) <;> first
        | exact h
        | exact kept.congr h rfl rfl rfl rfl
        | exact kept.congr (kept.take (task := .table []) h (.inr (.inr starved.1)) rfl) rfl rfl rfl rfl
    · exact h
  refine ⟨asked, ?_⟩
  simp only [State.writerScan]
  split
  · exact kept.congr asked rfl rfl rfl rfl
  · exact asked

theorem State.takeScan_wr_keeps (h : Q s.wr) : Q s.takeScan.wr := by
  unfold State.takeScan
  split
  · exact (State.writerScan_wr_keeps kept (by exact h)).2
  · exact h

theorem State.takeDeadlineExpiry_wr_keeps (h : Q s.wr) : Q s.takeDeadlineExpiry.wr := by
  unfold State.takeDeadlineExpiry
  split
  · next reached =>
    simp only [State.deadlineReached, Bool.and_eq_true, beq_iff_eq] at reached
    unfold State.takeDeadline
    split
    · exact Writer.beginClose_keeps kept h (.inr reached.1.1.2) _ _ _
    · exact kept.congr h rfl rfl rfl rfl
    all_goals exact h
  · exact h

theorem State.takeTimebaseEnd_wr_keeps (h : Q s.wr) : Q s.takeTimebaseEnd.wr := by
  unfold State.takeTimebaseEnd
  split
  · exact State.fatalFault_wr_keeps kept h _ _
  · exact h

theorem State.takeEngineReset_wr_keeps (h : Q s.wr) : Q s.takeEngineReset.wr := by
  unfold State.takeEngineReset
  split
  · exact kept.reset
  · exact h

theorem State.takeTick_wr_keeps (h : Q s.wr) : Q s.takeTick.wr := by
  have settled := State.settleCalendar_wr_keeps kept (State.takeEngineReset_wr_keeps kept h)
    (s.takeEngineReset.cal.length + 12)
  have ended : Q s.finishTick.wr := by
    unfold State.finishTick
    refine State.takeTimebaseEnd_wr_keeps kept (State.takeDeadlineExpiry_wr_keeps kept
      (State.takeScan_wr_keeps kept (State.settleLinks_wr_keeps kept (State.settleArrivals_wr_keeps kept
        (State.takeConversionEnd_wr_keeps kept ?_) _) _)))
    simpa using settled
  have same : s.takeTick.wr = s.finishTick.wr := by simp [State.takeTick, State.beginTick]
  rwa [same]

theorem State.reachCloseMarker_wr_keeps (h : Q s.wr) (m : CloseMarker) : Q (s.reachCloseMarker m).wr := by
  simp only [State.reachCloseMarker]
  split
  · next opened _ => exact Writer.beginClose_keeps kept (kept.drop h) (.inr opened) _ _ _
  · exact State.writerSettle_wr_keeps kept (State.offerAll_wr_keeps kept (kept.drop h) _)

theorem State.reachEndMarker_wr_keeps (h : Q s.wr) : Q s.reachEndMarker.wr :=
  State.writerSettle_wr_keeps kept (kept.congr (kept.drop h) rfl rfl rfl rfl)

theorem State.placeEndMarker_wr_keeps (h : Q s.wr) : Q s.placeEndMarker.wr := by
  unfold State.placeEndMarker
  split
  · exact h
  · next notDone =>
    split
    · next place =>
      exact kept.join _ h (of_decide_eq_true place) notDone
    · exact h

/-- The task the writer makes its request for is the one it has, or a record's where it holds an open page. -/
theorem State.writerWants_keeps (h : Q s.wr) {rq : Request} {task : WriterTask} (wants : s.writerWants = some (rq, task)) :
    Q { s.wr with task := task } := by
  have same : ∀ t, s.wr.task = t → Q { s.wr with task := t } := fun t ht => kept.congr h rfl ht.symm rfl rfl
  unfold State.writerWants at wants
  cases held : s.wr.task with simp only [held] at wants
  | table es | fill g =>
    cases wants
    exact same _ held
  | reject todo good =>
    cases todo <;> cases wants
    exact same _ held
  | header c | closed c =>
    obtain ⟨_, _, made⟩ := Option.map_eq_some_iff.mp wants
    cases made
    exact same _ held
  | record n | faultRecord => cases wants
  | none =>
    split at wants
    · next opened _ =>
      (repeat' split at wants) <;> cases wants <;> exact kept.fill h (.inr opened) rfl
    · cases wants

theorem State.takeSlotTaking_wr_keeps (h : Q s.wr) : Q s.takeSlotTaking.wr := by
  unfold State.takeSlotTaking
  split
  · next due =>
    simp only [State.slotTakingDue, Bool.and_eq_true, beq_iff_eq] at due
    obtain ⟨⟨⟨_, idle⟩, _⟩, _⟩ := due
    exact kept.take h (.inr (.inl idle)) rfl
  · exact h

theorem State.takeCloseMarker_wr_keeps (h : Q s.wr) : Q s.takeCloseMarker.wr := by
  unfold State.takeCloseMarker
  split
  · exact State.reachCloseMarker_wr_keeps kept h _
  · exact h

theorem State.takeEndMarker_wr_keeps (h : Q s.wr) : Q s.takeEndMarker.wr := by
  unfold State.takeEndMarker
  split
  · exact State.reachEndMarker_wr_keeps kept h
  · exact h

theorem State.takeDrainLimitExpiry_wr_keeps (h : Q s.wr) : Q s.takeDrainLimitExpiry.wr := by
  unfold State.takeDrainLimitExpiry
  split
  · exact Writer.stop_keeps kept h
  · exact h

theorem State.takeEndMarkerPlace_wr_keeps (h : Q s.wr) : Q s.takeEndMarkerPlace.wr := by
  unfold State.takeEndMarkerPlace
  split
  · exact State.placeEndMarker_wr_keeps kept h
  · exact h

theorem State.nudge_wr_keeps (h : Q s.wr) : Q s.nudge.wr := by
  simp only [State.nudge]
  (repeat' split) <;> first
    | exact h
    | exact (State.writerScan_wr_keeps kept (by simpa using h)).1

theorem State.takeAbort_wr_keeps (h : Q s.wr) : Q s.takeAbort.wr := by
  unfold State.takeAbort
  split
  · simp only [State.abortPreparation, State.prepareAbortEnd_frame]
    split <;> exact h
  · exact State.abortSession_wr_keeps kept h

theorem State.answer_wr_keeps (h : Q s.wr) (r : Requester) (rq : Request) (a : Answer) : Q (s.answer r rq a).wr := by
  have after : ∀ u : State, u.afterAnswer.wr = u.wr := fun u => by
    unfold State.afterAnswer
    split <;> simp
  cases r <;> simp only [State.answer, after]
  · exact State.loaderAnswer_wr_keeps kept h a
  · exact State.writerAnswer_wr_keeps kept h _ a
  · exact State.engineAnswer_keeps (P := fun t => Q t.wr) (fun _ => h) h (fun _ _ => by simpa using h) (fun _ _ => h)
      (fun _ _ _ _ => kept.reset) (fun _ _ _ => h) fun _ _ => by simpa using h

theorem State.present_wr_keeps (h : Q s.wr) (r : Requester) (rq : Request) : Q (s.present r rq).wr := by
  unfold State.present
  split
  · exact h
  · exact State.answer_wr_keeps kept h _ _ _

theorem State.sampleStart_wr_keeps (h : Q s.wr) (level : Level) : Q (s.sampleStart level).wr := by
  simp only [State.sampleStart]
  (repeat' split) <;> first | exact h | exact State.startSession_wr_keeps kept (by exact h)

theorem exec_keeps_wr {c : Instr} {t : State} (h : Q s.wr) (run : exec c s = .next t) : Q t.wr := by
  have same : ∀ u : State, u.wr = s.wr → Q u.wr := fun u e => e ▸ h
  cases c with simp only [exec] at run
  | prepare =>
    refine act_keeps (P := fun t => Q t.wr) run h
      (State.command_keeps (P := fun t => Q t.wr) (fun _ => h) fun _ _ => same _ ?_)
    simp only [State.beginPrepare]
    split <;> simp
  | startCommand =>
    exact act_keeps (P := fun t => Q t.wr) run h
      (State.command_keeps (P := fun t => Q t.wr) (fun _ => h) fun _ _ => State.startSession_wr_keeps kept (by exact h))
  | stopCommand =>
    exact act_keeps (P := fun t => Q t.wr) run h
      (State.command_keeps (P := fun t => Q t.wr) (fun _ => h) fun _ _ =>
        State.beginDrain_wr_keeps kept (by exact h) _)
  | abort =>
    exact act_keeps (P := fun t => Q t.wr) run h
      (State.command_keeps (P := fun t => Q t.wr) (fun _ => h) fun _ _ => State.takeAbort_wr_keeps kept (by exact h))
  | nudge => exact act_keeps (P := fun t => Q t.wr) run h (State.nudge_wr_keeps kept h)
  | unknownCommand => exact act_keeps (P := fun t => Q t.wr) run h (by split <;> exact h)
  | deviceReset =>
    cases run
    exact kept.reset
  | deviceResetEnd =>
    cases run
    exact same _ (by simp)
  | engineReset => exact act_keeps (P := fun t => Q t.wr) run h (State.takeEngineReset_wr_keeps kept h)
  | startLineEdge level =>
    exact act_keeps (P := fun t => Q t.wr) run h (State.sampleStart_wr_keeps kept (by exact h) level)
  | timebaseTick => exact act_keeps (P := fun t => Q t.wr) run h (State.takeTick_wr_keeps kept h)
  | timebaseEnd => exact act_keeps (P := fun t => Q t.wr) run h (State.takeTimebaseEnd_wr_keeps kept h)
  | tickArrival ch level =>
    exact act_keeps (P := fun t => Q t.wr) run h (State.takeArrival_wr_keeps kept (by exact h) ch level)
  | scanEvent => exact act_keeps (P := fun t => Q t.wr) run h (State.takeScan_wr_keeps kept h)
  | expiry => exact act_keeps (P := fun t => Q t.wr) run h (State.takeExpiry_wr_keeps kept h)
  | laneHeadOffer i => exact act_keeps (P := fun t => Q t.wr) run h (State.offerHead_wr_keeps kept h i)
  | set | start | stop | pause | resume | stage | fire | snapshot | powerOn | powerOff | reference | convert | note
  | closePage | endCue =>
    exact act_keeps (P := fun t => Q t.wr) run h
      (State.takeCue_keeps (P := fun t => Q t.wr) h (State.takeExpiry_wr_keeps kept h) _)
  | convertLinkRequest source =>
    exact act_keeps (P := fun t => Q t.wr) run h (State.takeLinkRequest_wr_keeps kept h source)
  | conversionEnd => exact act_keeps (P := fun t => Q t.wr) run h (State.takeConversionEnd_wr_keeps kept h)
  | requestPresent r =>
    exact act_keeps (P := fun t => Q t.wr) run h
      (State.presentRequest_keeps (P := fun t => Q t.wr) h (fun i => State.laneFault_wr_keeps kept h i _ _)
        (fun _ _ _ _ _ => State.present_wr_keeps kept (by exact h) _ _)
        (fun _ _ _ _ wants => State.present_wr_keeps kept (by exact State.writerWants_keeps kept h wants) _ _)
        fun _ _ _ => State.present_wr_keeps kept h _ _)
  | response =>
    exact act_keeps (P := fun t => Q t.wr) run h
      (State.takeResponse_keeps (P := fun t => Q t.wr) h fun _ _ => State.answer_wr_keeps kept (by exact h) _ _ _)
  | timeout =>
    exact act_keeps (P := fun t => Q t.wr) run h
      (State.takeTimeout_keeps (P := fun t => Q t.wr) h fun _ _ => State.answer_wr_keeps kept (by exact h) _ _ _)
  | slotTaking => exact act_keeps (P := fun t => Q t.wr) run h (State.takeSlotTaking_wr_keeps kept h)
  | closeMarkerReached => exact act_keeps (P := fun t => Q t.wr) run h (State.takeCloseMarker_wr_keeps kept h)
  | endMarkerReached => exact act_keeps (P := fun t => Q t.wr) run h (State.takeEndMarker_wr_keeps kept h)
  | deadlineExpiry => exact act_keeps (P := fun t => Q t.wr) run h (State.takeDeadlineExpiry_wr_keeps kept h)
  | drainLimitExpiry => exact act_keeps (P := fun t => Q t.wr) run h (State.takeDrainLimitExpiry_wr_keeps kept h)
  | endMarkerPlace => exact act_keeps (P := fun t => Q t.wr) run h (State.takeEndMarkerPlace_wr_keeps kept h)
  | recordOffer r => exact act_keeps (P := fun t => Q t.wr) run h (Writer.offer_keeps kept h _ r)
  | _ => exact act_keeps (P := fun t => Q t.wr) run h (same _
      (by simp [State.writeAlert, State.writeEnable, State.readTimeLo, State.takeAccept]))

end

/-! ## The writer fits its state (R144, Tables 6-2 and 6-3) -/

/-- What the access, the page and the queue are in each state of the writer. -/
theorem Writer.coherent_iff (w : Writer) : w.coherent ↔
    (w.state = .opened ∧ w.task.takes = false ∧ w.page.isSome) ∨
      ((w.state = .idle ∨ w.state = .starved) ∧ w.task.fills = false ∧ w.page = none) ∨
      (w.state = .done ∧ w.task = .none ∧ w.queue = []) := by
  unfold Writer.coherent
  cases state : w.state <;> cases task : w.task <;> simp [WriterTask.takes, WriterTask.fills]

theorem writerKept_coherent : WriterKept Writer.coherent where
  congr h state task page queue := by
    rw [Writer.coherent_iff] at h ⊢
    rwa [state, task, page, queue]
  join x h _ notDone := by
    rw [Writer.coherent_iff] at h ⊢
    exact h.imp id (Or.imp id fun done => absurd done.1 notDone)
  drop h := by
    rw [Writer.coherent_iff] at h ⊢
    exact h.imp id (Or.imp id fun ⟨done, rest, empty⟩ => ⟨done, rest, by simp [empty]⟩)
  discard h := by
    rw [Writer.coherent_iff] at h ⊢
    exact h.imp id (Or.imp id fun ⟨done, rest, _⟩ => ⟨done, rest, rfl⟩)
  stop _ := rfl
  rest h := by
    rw [Writer.coherent_iff] at h ⊢
    exact h.imp (fun ⟨state, _, page⟩ => ⟨state, rfl, page⟩)
      (Or.imp (fun ⟨state, _, page⟩ => ⟨state, rfl, page⟩) fun ⟨done, _, empty⟩ => ⟨done, rfl, empty⟩)
  take {w task} h before takes := by
    rw [Writer.coherent_iff] at h ⊢
    have fills : task.fills = false := by cases task <;> simp_all [WriterTask.takes, WriterTask.fills]
    rcases h with ⟨state, task, page⟩ | ⟨state, _, page⟩ | ⟨done, task, _⟩
    · simp_all
    · exact .inr (.inl ⟨state, fills, page⟩)
    · simp_all [WriterTask.takes]
  fill {w task} h before fills := by
    rw [Writer.coherent_iff] at h ⊢
    have takes : task.takes = false := by cases task <;> simp_all [WriterTask.takes, WriterTask.fills]
    rcases h with ⟨state, _, page⟩ | ⟨state, task, page⟩ | ⟨done, task, _⟩
    · exact .inl ⟨state, takes, page⟩
    · rcases state with state | state <;> simp_all
    · simp_all [WriterTask.fills]
  wrote f h := by
    rw [Writer.coherent_iff] at h ⊢
    simpa using h
  close _ := rfl
  open_ _ _ := rfl
  starve {w} h takes := by
    rw [Writer.coherent_iff] at h
    rcases h with ⟨_, task, _⟩ | ⟨_, _, page⟩ | ⟨_, task, _⟩
    · simp_all
    · exact page
    · simp_all [WriterTask.takes]
  reset := rfl

theorem writerKept_places : WriterKept fun w => w.queue.length ≤ 32 where
  congr h _ _ _ queue := queue ▸ h
  join x _ room _ := by simpa using room
  drop h := by simpa using Nat.le_succ_of_le h
  discard _ := Nat.zero_le _
  stop _ := Nat.zero_le _
  rest h := h
  take h _ _ := h
  fill h _ _ := h
  wrote _ h := h
  close h := h
  open_ _ h := h
  starve h _ := h
  reset := Nat.zero_le _

/-- Settles O59: each change of the writer leaves its access, page and queue such as its new state has them. -/
theorem stepKeepsWriterCoherent : Obligations.StepKeepsWriterCoherent :=
  fun _ _ coherent run => step_keeps (P := fun s => s.wr.coherent) (fun _ _ h => h)
    (fun _ _ _ h run => exec_keeps_wr writerKept_coherent h run) coherent run

end Sys2Proof.Machine
end

section
/-! PROOFS. The places of the conversion queue and of the lanes' trails (R41, R112): every command keeps both within them; with
the Calendar and the result queue, no queue passes its places. -/

namespace Sys2Proof.Machine

/-! ## The conversion queue: one Converter event (R112) -/

theorem Converter.startOldest_length (c : Converter) (now : Tick) (d : Nat) :
    (c.startOldest now d).queue.length ≤ c.queue.length := by
  unfold Converter.startOldest
  split
  · next queue => simp [queue]
  · exact le_rfl

theorem Converter.joinAll_length {c : Converter} (h : c.queue.length ≤ 8) (now : Tick) (l : List ConvRequest) :
    (c.joinAll now l).1.queue.length ≤ 8 := by
  induction l generalizing c with
  | nil => exact h
  | cons r rest ih =>
    unfold Converter.joinAll
    split
    · next room =>
      have free : c.queue.length < 8 := of_decide_eq_true room
      exact ih (by simpa using free)
    · exact ih h

theorem Converter.take_length {c : Converter} (h : c.queue.length ≤ 8) (source : Source) (tag : Half) (now : Tick)
    (d : Nat) (v : ConvVerb) : (c.take source tag now d v).1.queue.length ≤ 8 := by
  cases v with
  | powerOn =>
    simp only [Converter.take, Converter.powerOn]
    split <;> exact h
  | powerOff =>
    simp only [Converter.take, Converter.powerOff]
    split
    · exact h
    all_goals exact Nat.zero_le _
  | reference ref =>
    simp only [Converter.take, Converter.reference]
    (repeat' split) <;> exact h
  | convert mask =>
    simp only [Converter.take, Converter.convert]
    split
    · exact h
    all_goals exact (Converter.startOldest_length _ _ _).trans (Converter.joinAll_length h _ _)

theorem Converter.linkRequest_length {c : Converter} (h : c.queue.length ≤ 8) (r : ConvRequest) (now : Tick) (d : Nat) :
    (c.linkRequest r now d).1.queue.length ≤ 8 := by
  unfold Converter.linkRequest
  (repeat' split) <;> try exact h
  all_goals next room =>
    have free : c.queue.length < 8 := of_decide_eq_true room
    exact (Converter.startOldest_length _ _ _).trans (by simpa using free)

theorem Converter.becomeReady_length (c : Converter) (now : Tick) (d : Nat) :
    (c.becomeReady now d).queue.length ≤ c.queue.length := Converter.startOldest_length _ _ _

theorem Converter.conversionEnd_length (c : Converter) (now : Tick) (d : Nat) :
    (c.conversionEnd now d).1.queue.length ≤ c.queue.length := by
  simp only [Converter.conversionEnd]
  (repeat' split) <;> first
    | exact le_rfl
    | exact Nat.zero_le _
    | exact Converter.becomeReady_length _ _ _

theorem Converter.drain_queue (c : Converter) (now : Tick) : (c.drain now).1.queue = [] := by
  simp only [Converter.drain]
  split <;> rfl

/-! ## The trail: one event of a lane (R41) -/

theorem changeNewest_length (f : TrailEntry → TrailEntry) (l : List TrailEntry) :
    (changeNewest f l).length = l.length := by
  induction l using changeNewest.induct with
  | case1 | case2 => rfl
  | case3 t u rest ih => simpa [changeNewest] using ih

theorem Lane.releaseHeld_trail (l : Lane) : l.releaseHeld.trail.length = l.trail.length := by
  unfold Lane.releaseHeld
  (repeat' split) <;> simp [Lane.countRetired]

theorem Lane.retire_trail (l : Lane) (ref : Word) : (l.retire ref).trail.length = l.trail.length := by
  rw [Lane.retire, Lane.releaseHeld_trail]
  simp [Lane.countRetired]

theorem Lane.fault_trail (l : Lane) : l.fault.trail.length = l.trail.length := by
  simp only [Lane.fault]
  split
  · rw [Lane.releaseHeld_trail]
  · rfl

theorem Lane.stopped_trail (l : Lane) : l.stopped.trail = l.trail := by
  unfold Lane.stopped
  (repeat' split) <;> rfl

theorem Lane.cancelHead_trail (l : Lane) : l.cancelHead.trail.length = l.trail.length := by
  unfold Lane.cancelHead
  split
  · rw [Lane.retire_trail]
  · rfl

theorem Lane.askReread_trail (l : Lane) (b : Bool) : (l.askReread b).trail = l.trail := by
  unfold Lane.askReread
  (repeat' split) <;> rfl

theorem Lane.rereadAnswered_trail (l : Lane) : l.rereadAnswered.trail = l.trail := by
  unfold Lane.rereadAnswered
  split <;> rfl

theorem Lane.fetched_trail (l : Lane) : l.fetched.trail.length = l.trail.length := changeNewest_length _ _

theorem Lane.enter_trail {l m : Lane} {a : Word} (h : l.enter a = some m) : m.trail.length = l.trail.length + 1 := by
  unfold Lane.enter at h
  split at h <;> cases h
  simp

/-- A lane enters a segment only where its trail has a free place (R38). -/
theorem Lane.moveOn_trail {l m : Lane} (h : l.trail.length ≤ 4) (moved : l.moveOn = some m) : m.trail.length ≤ 4 := by
  unfold Lane.moveOn at moved
  split at moved
  · split at moved
    · cases moved
      exact h
    · split at moved
      · next free =>
        rw [Lane.enter_trail moved]
        exact free
      · cases moved
        exact h
  · cases moved
    exact h

theorem Lane.prepared_trail (b : Bool) (a : Word) : (Lane.prepared b a).trail.length ≤ 4 := by
  unfold Lane.prepared
  split <;> simp [Lane.off]

/-! ## Both, in the state -/

/-- The conversion queue and every trail are within their places. -/
def State.roomy (s : State) : Prop := s.conv.queue.length ≤ 8 ∧ ∀ i, (s.lane i).trail.length ≤ 4

variable {s t : State}

/-- Only the Converter and the lanes count. -/
theorem State.roomy_of_eq (h : s.roomy) (conv : t.conv = s.conv) (lanes : t.loader.lanes = s.loader.lanes) : t.roomy := by
  unfold State.roomy State.lane
  rw [conv, lanes]
  exact h

theorem State.roomy_of_trails (h : s.roomy) (conv : t.conv.queue.length ≤ 8)
    (trails : ∀ i, (t.lane i).trail.length = (s.lane i).trail.length) : t.roomy :=
  ⟨conv, fun i => trails i ▸ h.2 i⟩

theorem State.roomy_setLane (h : s.roomy) (i : LaneId) {l : Lane} (hl : l.trail.length ≤ 4) : (s.setLane i l).roomy := by
  refine ⟨h.1, fun j => ?_⟩
  by_cases same : i = j
  · rw [← same, State.lane_setLane_same]
    exact hl
  · rw [State.lane_setLane_ne _ _ same]
    exact h.2 j

theorem State.offerAll_roomy (h : s.roomy) (l : List Rec) : (s.offerAll l).roomy :=
  State.roomy_of_eq h (by simp) (by simp)

theorem State.roomy_setConv (h : s.roomy) {c : Converter} (hc : c.queue.length ≤ 8) :
    State.roomy { s with conv := c } := ⟨hc, h.2⟩

/-- Neither the writer nor Engine Control counts. -/
theorem State.roomy_setWriter (h : s.roomy) (w : Writer) (g : EngineControl) : State.roomy { s with wr := w, eng := g } := h

theorem State.stopChannels_roomy (h : s.roomy) : s.stopChannels.roomy := h

theorem State.beginFlush_roomy (h : s.roomy) : s.beginFlush.roomy := State.roomy_of_eq h (by simp) (by simp)

theorem State.writerAbortEnd_roomy (h : s.roomy) : s.writerAbortEnd.roomy := State.roomy_of_eq h (by simp) (by simp)

theorem State.writerScan_roomy (h : s.roomy) : s.writerScan.roomy := State.roomy_of_eq h (by simp) (by simp)

theorem State.takeDeadlineExpiry_roomy (h : s.roomy) : s.takeDeadlineExpiry.roomy :=
  State.roomy_of_eq h (by simp) (by simp)

theorem State.retireAlerts_roomy (h : s.roomy) (a b : Bool) : (s.retireAlerts a b).roomy :=
  State.roomy_of_eq h (by simp) (by simp)

/-! ## The Loader -/

theorem State.laneFault_roomy (h : s.roomy) (i : LaneId) (c : LaneFaultCause) (a : Word) : (s.laneFault i c a).roomy :=
  State.roomy_of_eq (State.roomy_setLane h i (l := (s.lane i).fault) (by rw [Lane.fault_trail]; exact h.2 i)) rfl rfl

theorem State.moveOn_roomy (h : s.roomy) (i : LaneId) : (s.moveOn i).roomy := by
  simp only [State.moveOn]
  (repeat' split)
  · next moved => exact State.roomy_setLane h i (Lane.moveOn_trail (h.2 i) moved)
  · exact State.laneFault_roomy h i _ _
  · exact h

theorem State.headerRead_roomy (h : s.roomy) (i : LaneId) (d : SegmentHeader) : (s.headerRead i d).roomy := by
  have trail := h.2 i
  have faulted := State.laneFault_roomy h i
  simp only [State.headerRead]
  (repeat' split)
  · exact faulted _ _
  · exact faulted _ _
  · exact State.moveOn_roomy (State.roomy_setLane h i (by simpa [changeNewest_length] using trail)) i
  · exact faulted _ _
  · exact State.roomy_setLane h i trail
  · exact State.roomy_setLane h i (by rw [Lane.rereadAnswered_trail]; exact trail)

theorem State.fetchCue_roomy (h : s.roomy) (i : LaneId) (d : BusData) : (s.fetchCue i d).roomy := by
  have fetched : (s.lane i).fetched.trail.length ≤ 4 := by
    rw [Lane.fetched_trail]
    exact h.2 i
  have rejected : ∀ o c, (s.rejectCue i d o c).roomy := fun o c =>
    State.roomy_of_eq (State.roomy_setLane h i (by rw [Lane.releaseHeld_trail]; exact fetched)) rfl rfl
  unfold State.fetchCue
  refine State.moveOn_roomy ?_ i
  (repeat' split)
  · exact rejected _ _
  · exact rejected _ _
  · exact State.roomy_setLane h i fetched

theorem State.statusWritten_roomy (h : s.roomy) (i : LaneId) : (s.statusWritten i).roomy := by
  have given : (s.lane i).trail.tail.length + 1 ≤ 4 ∨ (s.lane i).trail.tail.length = 0 := by
    have := h.2 i
    simp only [List.length_tail]
    omega
  have set := State.roomy_setLane h i (l := { s.lane i with trail := (s.lane i).trail.tail }) (by simp only; omega)
  simp only [State.statusWritten]
  split
  · split
    · next entered =>
      refine State.roomy_setLane h i ?_
      rw [Lane.enter_trail entered]
      simp only
      omega
    · exact State.laneFault_roomy set i _ _
  · refine State.roomy_of_eq set (by simp) ?_
    simp only [State.laneEnded]
    split <;> simp

theorem State.laneAnswer_roomy (h : s.roomy) (acc : LaneAccess) (a : Answer) : (s.laneAnswer acc a).roomy := by
  have faulted := State.laneFault_roomy h acc.lane
  simp only [State.laneAnswer]
  (repeat' split) <;> first
    | exact h
    | exact faulted _ _
    | exact State.statusWritten_roomy h _
    | exact State.headerRead_roomy h _ _
    | exact State.fetchCue_roomy h _ _

theorem State.loaderAnswer_roomy (h : s.roomy) (a : Answer) : (s.loaderAnswer a).roomy := by
  simp only [State.loaderAnswer]
  (repeat' split) <;> first | exact h | exact State.laneAnswer_roomy (by exact h) _ _

theorem State.lanesReread_roomy (h : s.roomy) : s.lanesReread.roomy := by
  refine State.roomy_of_trails h h.1 fun i => ?_
  have : s.lanesReread.lane i = (s.lane i).askReread (s.headerOutstanding i) := by
    simp [State.lanesReread, State.lane]
  rw [this, Lane.askReread_trail]

/-! ## The stop of a session -/

theorem State.cancelCues_roomy (h : s.roomy) : s.cancelCues.roomy := by
  refine State.roomy_of_trails h (by simpa using h.1) fun i => ?_
  have retired : ∀ (l : List Entry) (x : Lane), (l.foldl (fun m e => m.retire e.trailRef) x).trail.length =
      x.trail.length := fun l x => by
    induction l generalizing x with
    | nil => rfl
    | cons e rest ih => exact (ih _).trans (Lane.retire_trail _ _)
  have cancelled : s.cancelCalendar.lane i = s.laneRetired s.cal i := by
    unfold State.cancelCalendar
    rw [State.cancelEntries_lane]
    rfl
  rw [State.cancelCues, State.stopLanes_lane, Lane.cancelHead_trail, Lane.stopped_trail, cancelled, State.laneRetired,
    retired]

theorem State.beginDrain_roomy (h : s.roomy) (c : EndCause) : (s.beginDrain c).roomy := by
  have cancelled : ∀ u : State, u.conv = s.conv → u.loader = s.loader → u.cancelCues.stopChannels.roomy :=
    fun u conv loader => State.stopChannels_roomy (State.cancelCues_roomy (State.roomy_of_eq h conv (by rw [loader])))
  have drained : ∀ u : State, u.roomy → u.drainConverter.restartStarveCount.roomy := fun u hu => by
    refine State.roomy_of_trails hu ?_ fun i => ?_
    · simp [State.drainConverter, Converter.drain_queue]
    · simp only [State.lane, State.restartStarveCount_frame, State.drainConverter_frame]
  simp only [State.beginDrain]
  exact drained _ (cancelled _ rfl rfl)

theorem State.stopBlocks_roomy (h : s.roomy) : s.stopBlocks.roomy := by
  have withdrawn : ∀ u : State, u.roomy → u.withdrawLoader.stopChannels.roomy := fun u hu => by
    refine State.roomy_of_eq hu (by simp) ?_
    unfold State.stopChannels State.withdrawLoader
    split <;> rfl
  have aborted : ∀ u : State, u.roomy → u.abortConverter.roomy := fun u hu => by
    refine State.roomy_of_trails hu ?_ fun i => ?_
    · simp [State.abortConverter, Converter.abort, Converter.emptied]
    · simp only [State.lane, State.abortConverter_frame]
  exact aborted _ (withdrawn _ (State.cancelCues_roomy h))

theorem State.fatalFault_roomy (h : s.roomy) (code : FatalFault) (a : Word) : (s.fatalFault code a).roomy := by
  have stopped : ∀ u : State, u.conv = s.conv → u.loader = s.loader → u.stopBlocks.roomy :=
    fun u conv loader => State.stopBlocks_roomy (State.roomy_of_eq h conv (by rw [loader]))
  simp only [State.fatalFault]
  split
  · refine State.beginFlush_roomy (stopped _ ?_ ?_) <;> simp
  · refine State.roomy_setWriter (stopped _ ?_ ?_) _ _ <;> simp

theorem State.abortSession_roomy (h : s.roomy) : s.abortSession.roomy := by
  have stopped : ∀ u : State, u.conv = s.conv → u.loader = s.loader → u.stopBlocks.writerAbortEnd.roomy :=
    fun u conv loader => State.writerAbortEnd_roomy (State.stopBlocks_roomy (State.roomy_of_eq h conv (by rw [loader])))
  simp only [State.abortSession]
  refine stopped _ ?_ ?_ <;> simp

theorem State.prepareAbortEnd_roomy (h : s.roomy) : s.prepareAbortEnd.roomy := by
  have off : State.roomy { s with loader := { s.loader with lanes := Vector.replicate 4 Lane.off, access := none } } :=
    ⟨h.1, fun i => by simp [State.lane, Lane.off]⟩
  simp only [State.prepareAbortEnd]
  (repeat' split) <;> first | exact h | exact off

theorem State.takeAbort_roomy (h : s.roomy) : s.takeAbort.roomy := by
  unfold State.takeAbort
  split
  · simp only [State.abortPreparation]
    split <;> exact State.prepareAbortEnd_roomy (by exact h)
  · exact State.abortSession_roomy h

/-! ## Cues and ticks -/

theorem State.retireEntry_roomy (h : s.roomy) (e : Entry) (o : CueOutcome) (l : Option Half) :
    (s.retireEntry e o l).roomy := by
  have retired := State.roomy_setLane h e.lane (l := (s.lane e.lane).retire e.trailRef)
    (by rw [Lane.retire_trail]; exact h.2 e.lane)
  refine State.roomy_of_eq retired (by simp) ?_
  simp only [State.retireEntry, State.retireAlerts_frame]
  split <;> rfl

theorem State.dispatch_roomy (h : s.roomy) (e : Entry) (l : Option Half) : (s.dispatch e l).roomy := by
  have retired := fun (u : State) (hu : u.roomy) o => State.retireEntry_roomy hu e o l
  simp only [State.dispatch]
  split
  · exact retired _ (State.offerAll_roomy (by exact h) _) _
  · exact retired _ (State.offerAll_roomy (State.roomy_setConv h (Converter.take_length h.1 _ _ _ _ _)) _) _
  · simp only [State.dispatchNote]
    exact retired _ (by exact h) _
  · simp only [State.dispatchClosePage]
    have given : ∀ u : State, u.roomy → (u.retire e.lane e.trailRef).roomy := fun u hu =>
      State.roomy_setLane hu e.lane (by rw [Lane.retire_trail]; exact hu.2 e.lane)
    split
    · refine State.retireAlerts_roomy (given _ ?_) _ _
      split <;> exact h
    · exact retired s h _
  · simp only [State.dispatchEnd]
    split
    · exact retired s h _
    · exact State.beginDrain_roomy (retired s h _) _

theorem State.handleEntry_roomy (h : s.roomy) (e : Entry) : (s.handleEntry e).roomy := by
  simp only [State.handleEntry]
  split
  · exact State.retireEntry_roomy h _ _ _
  · exact State.dispatch_roomy h e _

theorem State.takeExpiry_roomy (h : s.roomy) : s.takeExpiry.roomy := by
  unfold State.takeExpiry
  split
  · exact State.handleEntry_roomy (by exact h) _
  · exact h

theorem State.takeExpiries_roomy (h : s.roomy) (n : Nat) : (s.takeExpiries n).roomy := by
  induction n generalizing s with
  | zero => exact h
  | succ n ih =>
    rw [State.takeExpiries_succ]
    exact ih (State.takeExpiry_roomy h)

theorem State.startSession_roomy (h : s.roomy) : s.startSession.roomy := by
  simp only [State.startSession]
  split
  · exact h
  · exact State.takeExpiries_roomy (by exact h) _

theorem State.sampleStart_roomy (h : s.roomy) (level : Level) : (s.sampleStart level).roomy := by
  simp only [State.sampleStart]
  (repeat' split) <;> first | exact h | exact State.startSession_roomy (by exact h)

theorem State.offerHead_roomy (h : s.roomy) (i : LaneId) : (s.offerHead i).roomy := by
  unfold State.offerHead
  split
  · have taken := State.roomy_setLane h i (l := { s.lane i with head := none }) (h.2 i)
    simp only [State.takeHead]
    split
    · exact State.handleEntry_roomy taken _
    · exact taken
  · exact h

theorem State.settleCalendar_roomy (h : s.roomy) (n : Nat) : (s.settleCalendar n).roomy := by
  induction n generalizing s with
  | zero => exact h
  | succ n ih =>
    unfold State.settleCalendar
    split
    · exact ih (State.takeExpiry_roomy h)
    · split
      · exact ih (State.offerHead_roomy h _)
      · exact h

theorem State.takeLinkRequest_roomy (h : s.roomy) (source : ChanId) : (s.takeLinkRequest source).roomy := by
  simp only [State.takeLinkRequest]
  (repeat' split) <;> first
    | exact h
    | exact State.offerAll_roomy (by exact ⟨Converter.linkRequest_length h.1 _ _ _, h.2⟩) _

theorem State.settleLinks_roomy (h : s.roomy) (l : List LinkDelivery) : (s.settleLinks l).roomy := by
  induction l generalizing s with
  | nil => exact h
  | cons d rest ih =>
    refine ih ?_
    unfold State.takeLink
    split
    · exact State.roomy_of_eq h (by simp) (by simp)
    · exact State.takeLinkRequest_roomy h _
    · exact h

theorem State.takeReady_roomy (h : s.roomy) (p : PowerState) : (s.takeReady p).roomy := by
  unfold State.takeReady
  split
  · exact State.roomy_setConv h ((Converter.becomeReady_length _ _ _).trans h.1)
  · exact h

theorem State.takeConversionEnd_roomy (h : s.roomy) : s.takeConversionEnd.roomy := by
  have ended := State.offerAll_roomy (State.roomy_setConv h
    ((Converter.conversionEnd_length s.conv s.now s.tb.divider).trans h.1)) (s.conv.conversionEnd s.now s.tb.divider).2
  simp only [State.takeConversionEnd]
  (repeat' split) <;> first | exact h | exact ended

theorem State.takeScan_roomy (h : s.roomy) : s.takeScan.roomy := by
  unfold State.takeScan
  split
  · exact State.writerScan_roomy (State.lanesReread_roomy (by exact h))
  · exact h

theorem State.takeTimebaseEnd_roomy (h : s.roomy) : s.takeTimebaseEnd.roomy := by
  unfold State.takeTimebaseEnd
  split
  · exact State.fatalFault_roomy h _ _
  · exact h

theorem State.takeEngineReset_roomy (h : s.roomy) : s.takeEngineReset.roomy := by
  unfold State.takeEngineReset
  split
  · exact ⟨Nat.zero_le _, fun i => by simp [State.lane, State.engineReset, Loader.reset, Lane.off]⟩
  · exact h

theorem State.takeTick_roomy (h : s.roomy) : s.takeTick.roomy := by
  have settled := State.takeConversionEnd_roomy (State.takeReady_roomy (State.takeReady_roomy
    (State.settleCalendar_roomy (State.takeEngineReset_roomy h) (s.takeEngineReset.cal.length + 12)) .warming) .settling)
  have arrived : ∀ u : State, u.roomy → (u.settleArrivals (List.finRange 16)).roomy := fun u hu =>
    State.roomy_of_eq hu (by simp) (by simp)
  have ended : s.finishTick.roomy := by
    unfold State.finishTick
    exact State.takeTimebaseEnd_roomy (State.takeDeadlineExpiry_roomy (State.takeScan_roomy (State.settleLinks_roomy
      (arrived _ settled) _)))
  exact State.roomy_of_eq ended (by simp [State.takeTick, State.beginTick]) (by simp [State.takeTick, State.beginTick])

/-! ## Answers, and every command -/

theorem State.nudge_roomy (h : s.roomy) : s.nudge.roomy := by
  have asked := State.lanesReread_roomy h
  unfold State.nudge
  (repeat' split)
  · exact h
  · exact State.roomy_of_eq asked (by simp) (by simp)
  · exact asked

theorem State.setUpSession_roomy (s : State) (su : SessionSetup) : (s.setUpSession su).roomy := by
  refine ⟨Nat.zero_le _, fun i => ?_⟩
  simpa [State.setUpSession, State.lane] using Lane.prepared_trail _ _

theorem State.answer_roomy (h : s.roomy) (r : Requester) (rq : Request) (a : Answer) : (s.answer r rq a).roomy := by
  have after : ∀ u : State, u.roomy → u.afterAnswer.roomy := fun u hu => by
    unfold State.afterAnswer
    split
    · exact State.prepareAbortEnd_roomy hu
    · exact hu
  cases r <;> refine after _ ?_
  · exact State.loaderAnswer_roomy h a
  · exact State.writerAnswer_keeps (P := State.roomy) (fun _ => h) (fun _ _ => h)
      (fun _ _ => State.roomy_of_eq h (by simp) (by simp))
      fun _ => State.pathFailure_keeps (P := State.roomy) h (fun _ _ _ => State.fatalFault_roomy (by exact h) _ _)
        fun _ => h
  · exact State.engineAnswer_keeps (P := State.roomy) (fun _ => h) h
      (fun _ _ => State.roomy_of_eq h (by simp) (by simp)) (fun _ _ => h) (fun _ _ su _ => s.setUpSession_roomy su)
      (fun _ _ _ => h) fun _ _ => State.roomy_of_eq h (by simp) (by simp)

theorem State.present_roomy (h : s.roomy) (r : Requester) (rq : Request) : (s.present r rq).roomy := by
  unfold State.present
  split
  · exact h
  · exact State.answer_roomy h _ _ _

theorem exec_keeps_roomy {c : Instr} (h : s.roomy) (run : exec c s = .next t) : t.roomy := by
  have same : ∀ u : State, u.conv = s.conv → u.loader = s.loader → u.roomy :=
    fun u conv loader => State.roomy_of_eq h conv (by rw [loader])
  cases c with simp only [exec] at run
  | prepare =>
    refine act_keeps (P := State.roomy) run h (State.command_keeps (fun _ => h) fun _ _ => same _ ?_ ?_) <;>
      simp only [State.beginPrepare] <;> split <;> simp
  | startCommand =>
    exact act_keeps run h (State.command_keeps (fun _ => h) fun _ _ => State.startSession_roomy (by exact h))
  | stopCommand =>
    exact act_keeps run h (State.command_keeps (fun _ => h) fun _ _ => State.beginDrain_roomy (by exact h) _)
  | abort => exact act_keeps run h (State.command_keeps (fun _ => h) fun _ _ => State.takeAbort_roomy (by exact h))
  | nudge => exact act_keeps run h (State.nudge_roomy (by exact h))
  | reset =>
    refine act_keeps (P := State.roomy) run h (State.roomy_of_eq h ?_ ?_) <;>
      simp only [State.beginReset] <;> split <;> rfl
  | unknownCommand => exact act_keeps (P := State.roomy) run h (by split <;> exact h)
  | deviceReset =>
    cases run
    exact ⟨Nat.zero_le _, fun i => by simp [State.lane, State.deviceReset, State.reset, Loader.reset, Lane.off]⟩
  | deviceResetEnd =>
    cases run
    exact same _ (by simp) (by simp)
  | engineReset => exact act_keeps run h (State.takeEngineReset_roomy h)
  | startLineEdge level => exact act_keeps run h (State.sampleStart_roomy (by exact h) level)
  | timebaseTick => exact act_keeps run h (State.takeTick_roomy h)
  | timebaseEnd => exact act_keeps run h (State.takeTimebaseEnd_roomy h)
  | scanEvent => exact act_keeps run h (State.takeScan_roomy h)
  | expiry => exact act_keeps run h (State.takeExpiry_roomy h)
  | laneHeadOffer i => exact act_keeps run h (State.offerHead_roomy h i)
  | set | start | stop | pause | resume | stage | fire | snapshot | powerOn | powerOff | reference | convert | note
  | closePage | endCue =>
    exact act_keeps run h (State.takeCue_keeps h (State.takeExpiry_roomy h) _)
  | convertLinkRequest source => exact act_keeps run h (State.takeLinkRequest_roomy h source)
  | warmUpEnd => exact act_keeps run h (State.takeReady_roomy h .warming)
  | settlingEnd => exact act_keeps run h (State.takeReady_roomy h .settling)
  | conversionEnd => exact act_keeps run h (State.takeConversionEnd_roomy h)
  | requestPresent r =>
    exact act_keeps run h
      (State.presentRequest_keeps h (fun i => State.laneFault_roomy h i _ _)
        (fun _ _ _ _ _ => State.present_roomy (by exact h) _ _)
        (fun _ _ _ _ _ => State.present_roomy (by exact h) _ _)
        fun _ _ _ => State.present_roomy h _ _)
  | response =>
    exact act_keeps run h (State.takeResponse_keeps h fun _ _ => State.answer_roomy (by exact h) _ _ _)
  | timeout =>
    exact act_keeps run h (State.takeTimeout_keeps h fun _ _ => State.answer_roomy (by exact h) _ _ _)
  | _ => exact act_keeps (P := State.roomy) run h (same _
      (by simp [State.writeAlert, State.writeEnable, State.readTimeLo, State.takeAccept])
      (by simp [State.writeAlert, State.writeEnable, State.readTimeLo, State.takeAccept]))

/-- The four queues, with the trails as lanes. -/
theorem State.withinPlaces_iff (s : State) :
    s.withinPlaces ↔ s.wr.queue.length ≤ 32 ∧ s.cal.length ≤ 48 ∧ s.roomy := Iff.rfl

theorem exec_keeps_withinPlaces (c : Instr) (s t : State) (h : s.withinPlaces) (run : exec c s = .next t) :
    t.withinPlaces := by
  obtain ⟨queue, cal, room⟩ := s.withinPlaces_iff.1 h
  exact t.withinPlaces_iff.2 ⟨exec_keeps_wr writerKept_places queue run, exec_keeps_cal calendarKept_places cal run,
    exec_keeps_roomy room run⟩

/-- Settles O54: an item joins a queue, and a segment a trail, only where a place is free. -/
theorem stepKeepsPlaces : Obligations.StepKeepsPlaces :=
  fun _ _ within run => step_keeps (fun _ _ h => h) exec_keeps_withinPlaces within run

end Sys2Proof.Machine
end

section
/-! PROOFS. The queue of commands, the resets and the register window (sections 7.11, 9.1; R167, R177 to R181): what each
command leaves of the queue and of the window's registers. -/

namespace Sys2Proof.Machine

/-! ## The queue of commands -/

/-- Settles O1: the two equations of a step. -/
theorem stepRunsFrontCommand : Obligations.StepRunsFrontCommand := by
  refine ⟨fun s c rest front => ?_, fun s empty => ?_⟩
  · simp only [step, front]
  · simp only [step, empty]

theorem exec_next (c : Instr) (s : State) : ∃ t, exec c s = .next t := by
  cases c <;> exact ⟨_, rfl⟩

theorem State.pending_command (s : State) (allowed : Bool) {f : State → State} (kept : ∀ u, (f u).pending = u.pending) :
    (s.command allowed f).pending = s.pending := by
  unfold State.command
  split
  · exact kept _
  · rfl

@[simp] theorem State.pending_takeEngineReset (s : State) : s.takeEngineReset.pending = s.pending := by
  unfold State.takeEngineReset
  split <;> rfl

@[simp] theorem State.pending_takeTick (s : State) : s.takeTick.pending = s.pending := by
  simp [State.takeTick, State.beginTick, State.finishTick]

theorem exec_keeps_pending {c : Instr} {s t : State} (run : exec c s = .next t) : t.pending = s.pending := by
  cases c with simp only [exec] at run
  | prepare =>
    refine act_keeps (P := fun t => t.pending = s.pending) run rfl (s.pending_command _ fun u => ?_)
    simp only [State.beginPrepare]
    split <;> simp
  | startCommand =>
    exact act_keeps (P := fun t => t.pending = s.pending) run rfl (s.pending_command _ fun u => by simp)
  | stopCommand =>
    exact act_keeps (P := fun t => t.pending = s.pending) run rfl
      (s.pending_command _ fun u => by simp [State.takeStop])
  | abort =>
    refine act_keeps (P := fun t => t.pending = s.pending) run rfl (s.pending_command _ fun u => ?_)
    unfold State.takeAbort
    split <;> simp
  | nudge =>
    refine act_keeps (P := fun t => t.pending = s.pending) run rfl ?_
    unfold State.nudge
    (repeat' split) <;> simp
  | reset =>
    refine act_keeps (P := fun t => t.pending = s.pending) run rfl ?_
    unfold State.beginReset
    split <;> rfl
  | unknownCommand =>
    refine act_keeps (P := fun t => t.pending = s.pending) run rfl ?_
    split <;> rfl
  | baseWrite =>
    refine act_keeps (P := fun t => t.pending = s.pending) run rfl ?_
    unfold State.writeBase
    split <;> rfl
  | deviceReset | deviceResetEnd =>
    cases run
    simp [State.deviceReset]
  | startLineEdge | tickArrival =>
    simpa using act_keeps (P := fun t => t.pending = s.pending) run rfl (by simp)
  | _ =>
    refine act_keeps (P := fun t => t.pending = s.pending) run rfl ?_
    simp [State.writeAlert, State.writeEnable, State.readTimeLo, State.takeAccept]

/-- Settles O2: each command answers a next state, with the queue as it was. -/
theorem everyCommandAnswersNext : Obligations.EveryCommandAnswersNext := by
  intro c s
  obtain ⟨t, run⟩ := exec_next c s
  exact ⟨t, run, exec_keeps_pending run⟩

/-! ## Resets (R167, R177) -/

/-- Blocks at their reset values, whatever the conversions counted and the quiet interval. -/
theorem State.blocksReset_of_eq {s : State} {n : Nat} {q : Option Nat} (cal : s.cal = []) (loader : s.loader = .reset)
    (chans : s.chans = Vector.replicate 16 Channel.reset) (conv : s.conv = .reset n) (wr : s.wr = .reset)
    (tb : s.tb = .reset) (port : s.port = .reset q) (tout : s.pins.tout = Vector.replicate 16 .low) :
    s.blocksReset := by
  have lane : ∀ i, s.lane i = Lane.off := fun i => by simp [State.lane, loader, Loader.reset]
  have chan : ∀ i, s.chan i = Channel.reset := fun i => by simp [State.chan, chans]
  simp only [State.blocksReset, lane, chan, cal, loader, conv, wr, tb, port, tout]
  refine ⟨trivial, rfl, fun _ => ⟨rfl, rfl, rfl, rfl, rfl, rfl, rfl, rfl, rfl, rfl⟩,
    fun _ => ⟨rfl, rfl, rfl, rfl, rfl, rfl, rfl, rfl, rfl, rfl, rfl, rfl, by simp⟩,
    ⟨rfl, rfl, rfl, rfl, rfl, rfl, rfl⟩, ⟨rfl, rfl, rfl, rfl, rfl, rfl, rfl, rfl, rfl⟩, ⟨rfl, rfl, rfl⟩,
    rfl, rfl, rfl, fun r => ?_⟩
  cases r <;> exact ⟨rfl, rfl⟩

/-- The reset state keeps every invariant: nothing is queued, each channel rests, nothing is outstanding. -/
theorem State.safe_reset : State.reset.safe := by
  have chan : ∀ ch : ChanId, State.reset.chans[ch] = Channel.reset := fun ch => by simp [State.reset]
  have lane : ∀ i : LaneId, State.reset.loader.lanes[i] = Lane.off := fun i => by simp [State.reset, Loader.reset]
  refine ⟨⟨by decide, by decide, by decide, fun i => ?_⟩, List.Pairwise.nil, fun ch => ?_, fun ch => ?_, ?_, rfl, ?_, ?_⟩
  · rw [lane]
    exact Nat.zero_le _
  · rw [chan]
    exact ⟨fun _ => rfl, fun _ => .inl rfl⟩
  · rw [chan]
    intro st none
    cases none
  · intro r path
    cases path
  · exact ⟨by decide, by decide, by decide, by decide⟩
  · exact ⟨by decide, by decide⟩

/-- Settles O3: the reset values, block by block. -/
theorem resetStateIsAsStated : Obligations.ResetStateIsAsStated :=
  ⟨State.blocksReset_of_eq rfl rfl rfl rfl rfl rfl rfl rfl, State.safe_reset, rfl, rfl, rfl, rfl, rfl, rfl, rfl, rfl, rfl, rfl,
    rfl, rfl⟩

/-- While a device reset is in force a command can change the input lines alone. -/
theorem exec_of_resetHeld {c : Instr} {s : State} (held : s.pins.resetHeld = true) (notReset : c ≠ .deviceReset)
    (notEnd : ∀ n, c ≠ .deviceResetEnd n) :
    ∃ t, exec c s = .next t ∧ t = { s with pins := { s.pins with tin := t.pins.tin, start := t.pins.start } } := by
  cases c with
  | deviceReset => exact absurd rfl notReset
  | deviceResetEnd n => exact absurd rfl (notEnd n)
  | startLineEdge level =>
    refine ⟨s.startLine level, ?_, rfl⟩
    simp [exec, execStartLineEdge, act, held]
  | tickArrival ch level =>
    refine ⟨s.inputLine ch level, ?_, rfl⟩
    simp [exec, execTickArrival, act, held]
  | _ =>
    simp only [exec]
    exact ⟨s, act_held held _, rfl⟩

/-- Settles O4: the reset values at once, and after them the input lines alone. -/
theorem deviceResetTakesEffect : Obligations.DeviceResetTakesEffect := by
  refine ⟨fun s => ⟨s.deviceReset, rfl, State.blocksReset_of_eq rfl rfl rfl rfl rfl rfl rfl rfl, ?_⟩,
    fun c s held notReset notEnd => exec_of_resetHeld held notReset notEnd⟩
  have noInt : s.deviceReset.int = false := by simp [State.int, State.deviceReset, State.reset, RegisterWindow.reset]
  exact ⟨rfl, rfl, rfl, rfl, rfl, rfl, rfl, rfl, rfl, rfl, rfl, rfl, rfl, rfl, rfl, rfl, noInt, rfl, rfl, rfl⟩

/-- In the quiet interval a response is discarded and no grant is made (R177). -/
theorem exec_of_quiet {s : State} {since : Nat} (quiet : s.port.quiet = some since) :
    (∀ r k ok d, exec (.response r k ok d) s = .next s) ∧ ∀ n, exec (.grant n) s = .next s := by
  refine ⟨fun r k ok d => ?_, fun n => ?_⟩
  · simp [exec, execResponse, act, State.takeResponse, quiet]
  · simp [exec, execGrant, act, State.takeGrant, State.mayGrant, quiet]

/-- Settles O5: the quiet interval begins with the end of the reset and lasts 4000 periods. -/
theorem quietInterval : Obligations.QuietInterval := by
  refine ⟨fun s n held => ?_, fun s since n free quiet reached => ?_, fun s since n free quiet early => ?_,
    fun s since n r k ok d quiet => ⟨(exec_of_quiet quiet).1 r k ok d, (exec_of_quiet quiet).2 n⟩⟩
  · simp [exec_deviceResetEnd, State.deviceResetEnd, held, State.setClock, State.clockAt]
  · rw [exec_quietIntervalEnd n s free]
    simp [State.takeQuietEnd, quiet, State.setClock, State.clockAt, Config.fortyMicroseconds, reached]
  · rw [exec_quietIntervalEnd n s free]
    have notReached : ¬ since + Config.fortyMicroseconds ≤ s.clockAt n := not_le.mpr early
    simp only [State.takeQuietEnd, quiet, if_neg notReached]

/-! ## ALERT, ALERT_ENABLE and INT (R180) -/

/-- A byte is not 0 when one of its bits is 1. -/
theorem Byte.ne_zero_iff (b : Byte) : b ≠ 0 ↔ ∃ k, k < 8 ∧ b.getLsbD k = true := by
  constructor
  · intro nonzero
    by_contra none
    push Not at none
    exact nonzero (BitVec.eq_of_getLsbD_eq fun k hk => by simpa using none k hk)
  · rintro ⟨k, _, bit⟩ rfl
    simp at bit

theorem State.int_iff (s : State) :
    s.int = true ↔ ∃ k, k < 8 ∧ s.win.alert.getLsbD k = true ∧ s.win.enable.getLsbD k = true := by
  simp only [State.int, bne_iff_ne, Byte.ne_zero_iff, BitVec.getLsbD_and, Bool.and_eq_true]

/-- Settles O6: the bits that the two writes leave, and INT bit by bit. -/
theorem alertRegistersAndInt : Obligations.AlertRegistersAndInt := by
  refine ⟨fun s v free => ⟨⟨_, exec_alertWrite v s free, fun k hk => ?_, rfl⟩,
    ⟨_, exec_alertEnableWrite v s free, fun k hk => ?_, rfl⟩⟩, State.int_iff⟩
  · simp [State.writeAlert, hk]
  · simp [State.writeEnable, hk]

/-! ## BASE and the ignored writes (R178) -/

/-- BASE and the TIME_HI latch are as they were. -/
def State.keepsRegisters (s t : State) : Prop := t.win.base = s.win.base ∧ t.win.timeHi = s.win.timeHi

theorem State.takeTick_registers (s : State) : s.takeEngineReset.keepsRegisters s.takeTick := by
  simp [State.keepsRegisters, State.takeTick, State.beginTick, State.finishTick]

@[simp] theorem State.base_takeEngineReset (s : State) : s.takeEngineReset.win.base = s.win.base := by
  unfold State.takeEngineReset
  split <;> rfl

/-- A command other than the two accesses and the resets keeps both; so does a tick with no engine reset to take. -/
theorem exec_keeps_registers {c : Instr} {s t : State} (run : exec c s = .next t) (notBase : ∀ v, c ≠ .baseWrite v)
    (notRead : c ≠ .timeLoRead) (notDevice : c ≠ .deviceReset) (notEngine : c ≠ .engineReset)
    (noReset : c = .timebaseTick → s.eng.resetPending = false) : s.keepsRegisters t := by
  have same : s.keepsRegisters s := ⟨rfl, rfl⟩
  cases c with simp only [exec] at run
  | baseWrite v => exact absurd rfl (notBase v)
  | timeLoRead => exact absurd rfl notRead
  | deviceReset => exact absurd rfl notDevice
  | engineReset => exact absurd rfl notEngine
  | prepare =>
    refine act_keeps (P := s.keepsRegisters) run same (State.command_keeps (fun _ => same) fun _ _ => ?_)
    simp only [State.keepsRegisters, State.beginPrepare]
    split <;> simp
  | startCommand =>
    exact act_keeps (P := s.keepsRegisters) run same
      (State.command_keeps (fun _ => same) fun _ _ => by simp [State.keepsRegisters])
  | stopCommand =>
    exact act_keeps (P := s.keepsRegisters) run same
      (State.command_keeps (fun _ => same) fun _ _ => by simp [State.keepsRegisters, State.takeStop])
  | abort =>
    refine act_keeps (P := s.keepsRegisters) run same (State.command_keeps (fun _ => same) fun _ _ => ?_)
    unfold State.takeAbort
    split <;> simp [State.keepsRegisters]
  | nudge =>
    refine act_keeps (P := s.keepsRegisters) run same ?_
    unfold State.nudge
    (repeat' split) <;> simp [State.keepsRegisters]
  | reset =>
    refine act_keeps (P := s.keepsRegisters) run same ?_
    unfold State.beginReset
    split <;> exact same
  | unknownCommand => exact act_keeps (P := s.keepsRegisters) run same (by split <;> exact same)
  | timebaseTick =>
    refine act_keeps (P := s.keepsRegisters) run same ?_
    have kept := s.takeTick_registers
    rwa [State.takeEngineReset_of_not_due (.inl (noReset rfl))] at kept
  | deviceResetEnd =>
    cases run
    simp [State.keepsRegisters]
  | startLineEdge | tickArrival =>
    exact act_keeps (P := s.keepsRegisters) run (by simp [State.keepsRegisters]) (by simp [State.keepsRegisters])
  | _ =>
    refine act_keeps (P := s.keepsRegisters) run same ?_
    simp [State.keepsRegisters, State.writeAlert, State.writeEnable, State.takeAccept]

theorem exec_keeps_base {c : Instr} {s t : State} (run : exec c s = .next t) (notBase : ∀ v, c ≠ .baseWrite v)
    (notReset : c ≠ .deviceReset) : t.win.base = s.win.base := by
  have base : ∀ f : State → State, (f s).win.base = s.win.base → act s f = .next t → t.win.base = s.win.base :=
    fun f kept run => act_keeps (P := fun t => t.win.base = s.win.base) run rfl kept
  by_cases special : c = .timeLoRead ∨ c = .engineReset ∨ c = .timebaseTick
  · rcases special with rfl | rfl | rfl
    · exact base _ rfl run
    · exact base _ s.base_takeEngineReset run
    · exact base _ (s.takeTick_registers.1.trans s.base_takeEngineReset) run
  · simp only [not_or] at special
    exact (exec_keeps_registers run notBase special.1 notReset special.2.1 fun tick => absurd tick special.2.2).1

theorem registerWrite_of_ignored {offset : BitVec 5} {bytes : Fin 5} (v : Word)
    (h : bytes ≠ 4 ∨ (offset ≠ 0x00 ∧ offset ≠ 0x04 ∧ offset ≠ 0x0C ∧ offset ≠ 0x10)) :
    registerWrite offset bytes v = .ignoredRegisterWrite offset bytes v := by
  unfold registerWrite
  rcases h with narrow | ⟨h0, h4, hC, h10⟩
  · simp only [narrow, false_and, if_false]
  · simp only [h0, h4, hC, h10, and_false, if_false]

/-- Settles O8: a write to BASE by its condition, and what an access of the window is. -/
theorem baseAndIgnoredWrites : Obligations.BaseAndIgnoredWrites := by
  refine ⟨⟨fun s v free yes => ?_, fun s v free no => ?_, fun c s t run notBase notReset =>
    exec_keeps_base run notBase notReset⟩, fun s offset bytes v => ?_, fun v => ⟨rfl, rfl, rfl, rfl⟩,
    fun offset bytes v h => registerWrite_of_ignored v h⟩
  · obtain ⟨between, noReset⟩ := s.accepts_prepare_iff.mp yes
    simp [exec_baseWrite v s free, State.writeBase, between, noReset]
  · rw [s.accepts_prepare_iff] at no
    rw [exec_baseWrite v s free, State.writeBase, if_neg (by simpa using no)]
    rfl
  · simp [exec, execIgnoredRegisterWrite, act]

/-! ## What a read returns (R178, R179, R181) -/

/-- Only a read of TIME_LO and the resets change the TIME_HI latch. -/
theorem exec_keeps_timeHi {c : Instr} {s t : State} (run : exec c s = .next t) (notRead : c ≠ .timeLoRead)
    (notDevice : c ≠ .deviceReset) (notEngine : c ≠ .engineReset)
    (noReset : c = .timebaseTick → s.eng.resetPending = false) : t.win.timeHi = s.win.timeHi := by
  by_cases base : ∃ v, c = .baseWrite v
  · obtain ⟨v, rfl⟩ := base
    simp only [exec] at run
    refine act_keeps (P := fun t => t.win.timeHi = s.win.timeHi) run rfl ?_
    unfold State.writeBase
    split <;> rfl
  · exact (exec_keeps_registers run (fun v h => base ⟨v, h⟩) notRead notDevice notEngine noReset).2

/-- A read of whole bytes of a word takes them from their place. -/
theorem addressedBytes_toNat (w : Word) (first : Nat) {bytes : Nat} (h : bytes ≤ 4) :
    (addressedBytes w first bytes).toNat = w.toNat / 2 ^ (8 * first) % 2 ^ (8 * bytes) := by
  have pow : 2 ^ (8 * bytes) ≤ 2 ^ 32 := Nat.pow_le_pow_right (by omega) (by omega)
  have pos : 0 < 2 ^ (8 * bytes) := Nat.two_pow_pos _
  simp only [addressedBytes, BitVec.toNat_and, BitVec.toNat_ushiftRight, BitVec.toNat_ofNat, Nat.shiftRight_eq_div_pow]
  rw [Nat.mod_eq_of_lt (by omega), Nat.and_two_pow_sub_one_eq_mod]

/-- A word is all its four bytes. -/
theorem addressedBytes_whole (w : Word) : addressedBytes w 0 4 = w := by
  refine BitVec.eq_of_toNat_eq ?_
  rw [addressedBytes_toNat w 0 le_rfl, Nat.mul_zero, Nat.pow_zero, Nat.div_one]
  exact Nat.mod_eq_of_lt w.isLt

/-- A read of the whole word at offset 4 k returns it. -/
theorem State.readRegister_word (s : State) {k : Nat} (h : k < 8) :
    s.readRegister (BitVec.ofNat 5 (4 * k)) 4 = s.registerWord k := by
  have offset : (BitVec.ofNat 5 (4 * k)).toNat = 4 * k := by
    rw [BitVec.toNat_ofNat]
    exact Nat.mod_eq_of_lt (by omega)
  rw [State.readRegister, offset, Nat.mul_div_cancel_left k (by omega), Nat.mul_mod_right, addressedBytes_whole]

/-- A narrow read returns the addressed bytes of what the whole read returns. -/
theorem State.readRegister_narrow (s : State) {k first bytes : Nat} (hk : k < 8) (hb : 0 < bytes) (hf : first + bytes ≤ 4) :
    (s.readRegister (BitVec.ofNat 5 (4 * k + first)) bytes).toNat =
      (s.readRegister (BitVec.ofNat 5 (4 * k)) 4).toNat / 2 ^ (8 * first) % 2 ^ (8 * bytes) := by
  have offset : (BitVec.ofNat 5 (4 * k + first)).toNat = 4 * k + first := by
    rw [BitVec.toNat_ofNat]
    exact Nat.mod_eq_of_lt (by omega)
  have word : (4 * k + first) / 4 = k := by omega
  have place : (4 * k + first) % 4 = first := by omega
  rw [s.readRegister_word hk, State.readRegister, offset, word, place, addressedBytes_toNat _ _ (by omega)]

theorem State.stateFields_le (s : State) : s.eng.state.code ≤ 6 ∧ boolBit s.eng.windDown ≤ 1 ∧ s.eng.result.code ≤ 3 ∧
    boolBit s.eng.secondary ≤ 1 ∧ boolBit (s.wr.state == .starved) ≤ 1 ∧ s.eng.prepError.code ≤ 9 ∧
    s.eng.endCause.code ≤ 5 ∧ faultCodeField s.eng.faultCode ≤ 2 := by
  have bit : ∀ b, boolBit b ≤ 1 := by decide
  refine ⟨?_, bit _, ?_, bit _, bit _, ?_, ?_, ?_⟩
  · cases s.eng.state <;> decide
  · cases s.eng.result <;> decide
  · cases s.eng.prepError <;> decide
  · cases s.eng.endCause <;> decide
  · rcases s.eng.faultCode with _ | (_ | _) <;> decide

/-- The word of STATE as a number: each item in its field. -/
theorem State.stateWord_toNat (s : State) :
    s.stateWord.toNat = s.eng.state.code + 2 ^ 3 * boolBit s.eng.windDown + 2 ^ 4 * s.eng.result.code
      + 2 ^ 6 * boolBit s.eng.secondary + 2 ^ 7 * boolBit (s.wr.state == .starved)
      + 2 ^ 8 * s.eng.prepError.code + 2 ^ 12 * s.eng.endCause.code + 2 ^ 16 * faultCodeField s.eng.faultCode := by
  have bounds := s.stateFields_le
  unfold State.stateWord
  rw [BitVec.toNat_ofNat]
  exact Nat.mod_eq_of_lt (by omega)

/-- STATE presents each item of Engine Control in its field, and the writer's STARVED in bit 7 (Table 9-2). -/
theorem State.stateWord_fields (s : State) :
    (s.stateWord.extractLsb' 0 3).toNat = s.eng.state.code ∧ s.stateWord.getLsbD 3 = s.eng.windDown ∧
      (s.stateWord.extractLsb' 4 2).toNat = s.eng.result.code ∧ s.stateWord.getLsbD 6 = s.eng.secondary ∧
      (s.stateWord.getLsbD 7 = true ↔ s.wr.state = .starved) ∧
      (s.stateWord.extractLsb' 8 4).toNat = s.eng.prepError.code ∧
      (s.stateWord.extractLsb' 12 3).toNat = s.eng.endCause.code ∧
      (s.stateWord.extractLsb' 16 2).toNat = faultCodeField s.eng.faultCode ∧
      s.stateWord.getLsbD 15 = false ∧ s.stateWord.extractLsb' 18 14 = 0 := by
  have bounds := s.stateFields_le
  have word := s.stateWord_toNat
  have bit : ∀ (k : Nat) (b : Bool), s.stateWord.toNat / 2 ^ k % 2 = boolBit b → s.stateWord.getLsbD k = b := by
    intro k b h
    rw [BitVec.getLsbD, Nat.testBit_eq_decide_div_mod_eq, h]
    cases b <;> rfl
  have field : ∀ a n, (s.stateWord.extractLsb' a n).toNat = s.stateWord.toNat / 2 ^ a % 2 ^ n := fun a n => by
    rw [BitVec.extractLsb'_toNat, Nat.shiftRight_eq_div_pow]
  have zero : boolBit false = 0 := rfl
  have starved := bit 7 (s.wr.state == .starved) (by omega)
  refine ⟨?_, bit 3 _ (by omega), ?_, bit 6 _ (by omega), by rw [starved, beq_iff_eq], ?_, ?_, ?_,
    bit 15 false (by rw [zero]; omega), BitVec.eq_of_toNat_eq ?_⟩
  case refine_6 =>
    rw [field, show (0 : BitVec 14).toNat = 0 from rfl]
    omega
  all_goals rw [field]; omega

/-- Settles O9: TIME_LO_READ and the latch it alone sets, and a read of each register as a word and in part. -/
theorem timeLoReadLatches : Obligations.TimeLoReadLatches := by
  refine ⟨fun s free => ⟨_, exec_timeLoRead s free, ?_, ?_, rfl⟩, fun s => ?_, fun s t run => ?_, fun s t run => ?_,
    fun c s t run notRead notDevice notEngine noReset => exec_keeps_timeHi run notRead notDevice notEngine noReset,
    fun s => ?_, fun s => ?_, fun s k first bytes hk hb hf => s.readRegister_narrow hk hb hf, fun offset => ?_⟩
  · simp [State.readTimeLo, State.timeLo]
  · have below := s.tb.count.isLt
    simp only [State.readTimeLo, BitVec.extractLsb'_toNat, Nat.shiftRight_eq_div_pow]
    omega
  · have latch := s.readRegister_word (k := 6) (by omega)
    exact (congrArg BitVec.toNat latch).trans (s.win.timeHi.toNat_setWidth_of_le (by omega))
  · cases run
    rfl
  · by_cases held : s.pins.resetHeld = true
    · cases (act_held held State.takeEngineReset).symm.trans run
      exact .inl rfl
    · cases (exec_engineReset s (by simpa using held)).symm.trans run
      unfold State.takeEngineReset
      split
      · exact .inr rfl
      · exact .inl rfl
  · have whole : s.readRegister 0x08 4 = s.stateWord := s.readRegister_word (k := 2) (by omega)
    obtain ⟨state, windDown, result, secondary, starved, prepError, endCause, faultCode, rest⟩ := s.stateWord_fields
    simp only [whole]
    refine ⟨state.trans ?_, windDown, result.trans ?_, secondary, starved, prepError.trans ?_, endCause.trans ?_,
      faultCode.trans ?_, rest⟩
    · cases s.eng.state <;> rfl
    · cases s.eng.result <;> rfl
    · cases s.eng.prepError <;> rfl
    · cases s.eng.endCause <;> rfl
    · rcases s.eng.faultCode with _ | (_ | _) <;> rfl
  · have word := fun k (h : k < 8) => congrArg BitVec.toNat (s.readRegister_word h)
    refine ⟨s.readRegister_word (k := 0) (by omega), s.readRegister_word (k := 1) (by omega),
      (word 3 (by omega)).trans (s.win.alert.toNat_setWidth_of_le (by omega)),
      (word 4 (by omega)).trans (s.win.enable.toNat_setWidth_of_le (by omega)),
      (word 5 (by omega)).trans (BitVec.toNat_setWidth _ _), s.readRegister_word (k := 7) (by omega)⟩
  · unfold registerRead
    refine ⟨fun inside => if_pos (by omega), fun outside => if_neg (by omega)⟩

/-! ## PREPARE (R149, R151) -/

theorem State.beginPrepare_spec (s : State) :
    s.beginPrepare.eng.cba = s.win.base ∧ s.beginPrepare.eng.endCause = .none ∧ s.beginPrepare.eng.faultCode = none ∧
      s.beginPrepare.eng.faultAddr = 0 ∧ s.beginPrepare.eng.secondary = false ∧ s.beginPrepare.eng.windDown = false ∧
      s.beginPrepare.eng.resetPending = s.eng.resetPending ∧ s.beginPrepare.eng.lastStart = s.eng.lastStart ∧
      s.beginPrepare.port = { s.port with window := none, lastServed := .writer } ∧
      (s.win.base.toNat % 512 = 0 →
        s.beginPrepare.eng.state = .preparing ∧ s.beginPrepare.eng.prepError = .none ∧ s.beginPrepare.win = s.win ∧
        s.beginPrepare.engineWants = some (controlRead s.win.base false)) ∧
      (s.win.base.toNat % 512 ≠ 0 →
        s.beginPrepare.eng.state = .off ∧ s.beginPrepare.eng.prepError = .badWindow ∧
        s.beginPrepare.win = { s.win with alert := s.win.alert ||| 0x80 } ∧ s.beginPrepare.engineWants = none) ∧
      s.beginPrepare =
        { s with eng := s.beginPrepare.eng, port := s.beginPrepare.port, win := s.beginPrepare.win } := by
  by_cases aligned : s.win.base.toNat % 512 = 0
  · simp [State.beginPrepare, aligned, State.engineWants]
  · simp [State.beginPrepare, aligned, State.engineWants, State.failPrepare, State.raise, Alert.mask]

/-- Settles O12: what an accepted PREPARE leaves, with the address aligned or not. -/
theorem prepareBegins : Obligations.PrepareBegins := by
  intro s free yes
  obtain ⟨cba, endCause, faultCode, faultAddr, secondary, windDown, pending, lastStart, port, aligned, misaligned, rest⟩ :=
    (s.setResult .accepted).beginPrepare_spec
  obtain ⟨_, noReset⟩ := s.accepts_prepare_iff.mp yes
  exact ⟨_, exec_prepare_of_accepts free yes, cba, endCause, faultCode, faultAddr, secondary, windDown,
    State.result_beginPrepare _, pending.trans noReset, lastStart, port, aligned, misaligned, rest⟩

end Sys2Proof.Machine
end

section
/-! PROOFS. The alert bits (R180): every command but ALERT_WRITE and the resets leaves each bit that is 1 at 1. -/

namespace Sys2Proof.Machine

/-- Every bit that is 1 in the mask is 1 in ALERT. -/
def State.showsAlerts (m : Byte) (s : State) : Prop := ∀ k, m.getLsbD k = true → s.win.alert.getLsbD k = true

section
variable {m : Byte} {s t : State}

theorem State.showsAlerts_of_win (h : s.showsAlerts m) (win : t.win = s.win) : t.showsAlerts m := by
  unfold State.showsAlerts
  rw [win]
  exact h

/-- Setting an alert bit leaves the others. -/
theorem State.raise_showsAlerts (h : s.showsAlerts m) (a : Alert) : (s.raise a).showsAlerts m := fun k bit => by
  simp [h k bit]

theorem State.offerAll_showsAlerts (h : s.showsAlerts m) (l : List Rec) : (s.offerAll l).showsAlerts m :=
  State.showsAlerts_of_win h (by simp)

/-! ## The Loader -/

theorem State.laneFault_showsAlerts (h : s.showsAlerts m) (i : LaneId) (c : LaneFaultCause) (a : Word) :
    (s.laneFault i c a).showsAlerts m := State.raise_showsAlerts (by exact h) .lane

theorem State.moveOn_showsAlerts (h : s.showsAlerts m) (i : LaneId) : (s.moveOn i).showsAlerts m := by
  simp only [State.moveOn]
  (repeat' split)
  · exact State.showsAlerts_of_win h rfl
  · exact State.laneFault_showsAlerts h _ _ _
  · exact h

theorem State.headerRead_showsAlerts (h : s.showsAlerts m) (i : LaneId) (d : SegmentHeader) :
    (s.headerRead i d).showsAlerts m := by
  have faulted := State.laneFault_showsAlerts h i
  simp only [State.headerRead]
  (repeat' split)
  · exact faulted _ _
  · exact faulted _ _
  · exact State.moveOn_showsAlerts (by exact h) i
  · exact faulted _ _
  · exact State.showsAlerts_of_win h rfl
  · exact State.showsAlerts_of_win h rfl

theorem State.fetchCue_showsAlerts (h : s.showsAlerts m) (i : LaneId) (d : BusData) : (s.fetchCue i d).showsAlerts m := by
  have rejected : ∀ o c, (s.rejectCue i d o c).showsAlerts m := fun _ _ => State.raise_showsAlerts (by exact h) .refuse
  unfold State.fetchCue
  refine State.moveOn_showsAlerts ?_ i
  (repeat' split)
  · exact rejected _ _
  · exact rejected _ _
  · exact State.showsAlerts_of_win h rfl

theorem State.laneEnded_showsAlerts (h : s.showsAlerts m) (i : LaneId) : (s.laneEnded i).showsAlerts m := by
  simp only [State.laneEnded]
  split
  · exact State.raise_showsAlerts (by exact h) .lane
  · exact h

theorem State.statusWritten_showsAlerts (h : s.showsAlerts m) (i : LaneId) : (s.statusWritten i).showsAlerts m := by
  simp only [State.statusWritten]
  (repeat' split)
  · exact h
  · exact State.laneFault_showsAlerts (by exact h) _ _ _
  · exact State.laneEnded_showsAlerts (by exact h) _

theorem State.laneAnswer_showsAlerts (h : s.showsAlerts m) (acc : LaneAccess) (a : Answer) :
    (s.laneAnswer acc a).showsAlerts m := by
  have faulted := State.laneFault_showsAlerts h acc.lane
  simp only [State.laneAnswer]
  split
  case h_3 =>
    split
    · exact State.statusWritten_showsAlerts h _
    all_goals exact faulted _ _
  case h_4 | h_5 =>
    split
    · exact State.headerRead_showsAlerts h _ _
    all_goals exact faulted _ _
  case h_6 =>
    split
    · exact State.fetchCue_showsAlerts h _ _
    all_goals exact faulted _ _
  all_goals exact h

theorem State.loaderAnswer_showsAlerts (h : s.showsAlerts m) (a : Answer) : (s.loaderAnswer a).showsAlerts m := by
  simp only [State.loaderAnswer]
  (repeat' split) <;> first | exact h | exact State.laneAnswer_showsAlerts (by exact h) _ _

/-! ## Engine Control -/

theorem State.fatalFault_showsAlerts (h : s.showsAlerts m) (code : FatalFault) (a : Word) :
    (s.fatalFault code a).showsAlerts m := by
  have raised : ∀ u : State, u.win = s.win → (u.raise .fault).showsAlerts m := fun u win =>
    State.raise_showsAlerts (State.showsAlerts_of_win h win) .fault
  have stopped : ∀ u : State, u.showsAlerts m → u.holdTimebase.stopBlocks.showsAlerts m := fun u hu =>
    State.showsAlerts_of_win hu (by simp)
  have complete : ∀ (u : State) (w : Writer) (g : EngineControl), u.showsAlerts m →
      State.showsAlerts m { u with wr := w, eng := g } := fun _ _ _ hu => hu
  have flushed : ∀ u : State, u.showsAlerts m → u.beginFlush.showsAlerts m := fun u hu =>
    State.showsAlerts_of_win hu (by simp)
  simp only [State.fatalFault]
  split
  · refine flushed _ (stopped _ (raised _ ?_))
    simp
  · refine complete _ _ _ (stopped _ (raised _ ?_))
    simp

theorem State.pathFailure_showsAlerts (h : s.showsAlerts m) (a : Word) : (s.pathFailure a).showsAlerts m :=
  State.pathFailure_keeps (P := State.showsAlerts m) h (fun _ _ _ => State.fatalFault_showsAlerts (by exact h) _ _)
    fun _ => h

theorem State.failPrepare_showsAlerts (h : s.showsAlerts m) (e : PrepareError) : (s.failPrepare e).showsAlerts m :=
  State.raise_showsAlerts (by exact h) .prep

theorem State.beginPrepare_showsAlerts (h : s.showsAlerts m) : s.beginPrepare.showsAlerts m := by
  simp only [State.beginPrepare]
  split
  · exact h
  · exact State.failPrepare_showsAlerts (by exact h) _

theorem State.prepareAbortEnd_showsAlerts (h : s.showsAlerts m) : s.prepareAbortEnd.showsAlerts m := by
  simp only [State.prepareAbortEnd]
  (repeat' split) <;> first | exact h | exact State.failPrepare_showsAlerts (by exact h) _

theorem State.takeAbort_showsAlerts (h : s.showsAlerts m) : s.takeAbort.showsAlerts m := by
  unfold State.takeAbort
  split
  · simp only [State.abortPreparation]
    split <;> exact State.prepareAbortEnd_showsAlerts (by exact h)
  · exact State.showsAlerts_of_win h (by simp)

theorem State.finishSummary_showsAlerts (h : s.showsAlerts m) : s.finishSummary.showsAlerts m := by
  simp only [State.finishSummary]
  (repeat' split) <;> first | exact h | exact State.raise_showsAlerts (by exact h) .ended

/-! ## The writer -/

theorem State.noSlot_showsAlerts (h : s.showsAlerts m) : s.noSlot.showsAlerts m := by
  have starved : s.becomeStarved.showsAlerts m := State.raise_showsAlerts (by exact h) .starve
  unfold State.noSlot
  (repeat' split)
  · exact h
  · exact State.showsAlerts_of_win h (by simp)
  · exact starved
  · exact starved

theorem State.afterRejects_showsAlerts (h : s.showsAlerts m) (g : Option GoodSlot) : (s.afterRejects g).showsAlerts m := by
  cases g with
  | some g => exact h
  | none => exact State.noSlot_showsAlerts h

theorem State.writerSettle_showsAlerts (h : s.showsAlerts m) : s.writerSettle.showsAlerts m :=
  State.showsAlerts_of_win h (by simp)

theorem State.writerAbortEnd_showsAlerts (h : s.showsAlerts m) : s.writerAbortEnd.showsAlerts m :=
  State.showsAlerts_of_win h (by simp)

theorem State.closeComplete_showsAlerts (h : s.showsAlerts m) (c : Closing) : (s.closeComplete c).showsAlerts m := by
  have paged : State.showsAlerts m
      (({ s with wr := { s.wr with page := none, task := .none, state := .idle } } : State).raise .page) :=
    State.raise_showsAlerts (by exact h) .page
  have limited : ∀ u : State, u.showsAlerts m → (u.limitClose c).showsAlerts m := fun u hu =>
    State.showsAlerts_of_win hu (by simp)
  simp only [State.closeComplete]
  split
  · split
    · exact State.offerAll_showsAlerts (limited _ paged) _
    · exact limited _ paged
  · refine State.writerSettle_showsAlerts ?_
    split
    · exact State.offerAll_showsAlerts paged _
    · exact paged

theorem State.examine_showsAlerts (h : s.showsAlerts m) (l : List SlotEntry) : (s.examine l).showsAlerts m := by
  simp only [State.examine]
  split
  · exact State.afterRejects_showsAlerts h _
  · exact h

theorem State.writerOkay_showsAlerts (h : s.showsAlerts m) (d : BusData) : (s.writerOkay d).showsAlerts m := by
  simp only [State.writerOkay]
  split
  · split
    · exact State.writerAbortEnd_showsAlerts h
    · split
      · exact State.showsAlerts_of_win h rfl
      · exact State.examine_showsAlerts h _
  · have rejected : ∀ r, (s.offer r).showsAlerts m := fun _ => State.showsAlerts_of_win h rfl
    split
    · exact State.writerAbortEnd_showsAlerts (rejected _)
    · split
      · exact State.afterRejects_showsAlerts (rejected _) _
      · exact State.showsAlerts_of_win h rfl
  · exact State.afterRejects_showsAlerts h _
  · split
    · exact State.writerAbortEnd_showsAlerts h
    · exact State.writerSettle_showsAlerts (State.showsAlerts_of_win h rfl)
  · have written : ∀ n, (s.recordWritten n).showsAlerts m := fun _ => State.showsAlerts_of_win h rfl
    split
    · exact State.writerAbortEnd_showsAlerts (written _)
    · split
      · exact State.showsAlerts_of_win h rfl
      · exact State.writerSettle_showsAlerts (written _)
  · exact State.writerSettle_showsAlerts (State.showsAlerts_of_win h rfl)
  · exact State.showsAlerts_of_win h rfl
  · exact State.closeComplete_showsAlerts h _
  · exact h

/-! ## Cues and ticks -/

theorem State.retireAlerts_showsAlerts (h : s.showsAlerts m) (a b : Bool) : (s.retireAlerts a b).showsAlerts m := by
  have late : State.showsAlerts m (if a then s.raise .late else s) := by
    split
    · exact State.raise_showsAlerts h .late
    · exact h
  simp only [State.retireAlerts]
  split
  · exact State.raise_showsAlerts late .refuse
  · exact late

theorem State.retireEntry_showsAlerts (h : s.showsAlerts m) (e : Entry) (o : CueOutcome) (l : Option Half) :
    (s.retireEntry e o l).showsAlerts m := by
  simp only [State.retireEntry]
  refine State.retireAlerts_showsAlerts ?_ _ _
  split <;> exact h

theorem State.dispatch_showsAlerts (h : s.showsAlerts m) (e : Entry) (l : Option Half) : (s.dispatch e l).showsAlerts m := by
  have retired := fun (u : State) (hu : u.showsAlerts m) o => State.retireEntry_showsAlerts hu e o l
  simp only [State.dispatch]
  split
  · exact retired _ (State.offerAll_showsAlerts (by exact h) _) _
  · exact retired _ (State.offerAll_showsAlerts (by exact h) _) _
  · simp only [State.dispatchNote]
    exact retired _ (by exact h) _
  · simp only [State.dispatchClosePage]
    split
    · refine State.retireAlerts_showsAlerts ?_ _ _
      split <;> exact h
    · exact retired s h _
  · simp only [State.dispatchEnd]
    split
    · exact retired s h _
    · exact State.showsAlerts_of_win (retired s h (dispatchOutcome l .done)) (by simp)

theorem State.handleEntry_showsAlerts (h : s.showsAlerts m) (e : Entry) : (s.handleEntry e).showsAlerts m := by
  simp only [State.handleEntry]
  split
  · exact State.retireEntry_showsAlerts h _ _ _
  · exact State.dispatch_showsAlerts h e _

theorem State.takeExpiry_showsAlerts (h : s.showsAlerts m) : s.takeExpiry.showsAlerts m := by
  unfold State.takeExpiry
  split
  · exact State.handleEntry_showsAlerts (by exact h) _
  · exact h

theorem State.takeExpiries_showsAlerts (h : s.showsAlerts m) (n : Nat) : (s.takeExpiries n).showsAlerts m := by
  induction n generalizing s with
  | zero => exact h
  | succ n ih =>
    rw [State.takeExpiries_succ]
    exact ih (State.takeExpiry_showsAlerts h)

theorem State.startSession_showsAlerts (h : s.showsAlerts m) : s.startSession.showsAlerts m := by
  simp only [State.startSession]
  split
  · exact h
  · exact State.takeExpiries_showsAlerts (by exact h) _

theorem State.sampleStart_showsAlerts (h : s.showsAlerts m) (level : Level) : (s.sampleStart level).showsAlerts m := by
  simp only [State.sampleStart]
  (repeat' split) <;> first | exact h | exact State.startSession_showsAlerts (by exact h)

theorem State.offerHead_showsAlerts (h : s.showsAlerts m) (i : LaneId) : (s.offerHead i).showsAlerts m := by
  unfold State.offerHead
  split
  · simp only [State.takeHead]
    split
    · exact State.handleEntry_showsAlerts (by exact h) _
    · exact h
  · exact h

theorem State.settleCalendar_showsAlerts (h : s.showsAlerts m) (n : Nat) : (s.settleCalendar n).showsAlerts m := by
  induction n generalizing s with
  | zero => exact h
  | succ n ih =>
    unfold State.settleCalendar
    split
    · exact ih (State.takeExpiry_showsAlerts h)
    · split
      · exact ih (State.offerHead_showsAlerts h _)
      · exact h

theorem State.takeTimebaseEnd_showsAlerts (h : s.showsAlerts m) : s.takeTimebaseEnd.showsAlerts m := by
  unfold State.takeTimebaseEnd
  split
  · exact State.fatalFault_showsAlerts h _ _
  · exact h

/-- A tick that takes no engine reset. -/
theorem State.takeTick_showsAlerts (h : s.showsAlerts m) (noReset : s.eng.resetPending = false) :
    s.takeTick.showsAlerts m := by
  have settled := State.settleCalendar_showsAlerts h (s.cal.length + 12)
  have ended : s.finishTick.showsAlerts m := by
    simp only [State.finishTick, State.takeEngineReset_of_not_due (.inl noReset)]
    refine State.takeTimebaseEnd_showsAlerts (State.showsAlerts_of_win settled ?_)
    simp
  exact State.showsAlerts_of_win ended (by simp [State.takeTick, State.beginTick])

/-! ## Answers, and every command -/

theorem State.answer_showsAlerts (h : s.showsAlerts m) (r : Requester) (rq : Request) (a : Answer) :
    (s.answer r rq a).showsAlerts m := by
  have after : ∀ u : State, u.showsAlerts m → u.afterAnswer.showsAlerts m := fun u hu => by
    unfold State.afterAnswer
    split
    · exact State.prepareAbortEnd_showsAlerts hu
    · exact hu
  cases r <;> refine after _ ?_
  · exact State.loaderAnswer_showsAlerts h a
  · exact State.writerAnswer_keeps (P := State.showsAlerts m) (fun _ => h) (fun _ _ => h)
      (fun _ d => State.writerOkay_showsAlerts h d) fun _ => State.pathFailure_showsAlerts h _
  · exact State.engineAnswer_keeps (P := State.showsAlerts m) (fun _ => h) h
      (fun _ e => State.failPrepare_showsAlerts h e) (fun _ _ => h) (fun _ _ _ _ => h) (fun _ _ _ => h)
      fun _ _ => State.finishSummary_showsAlerts (by exact h)

theorem State.present_showsAlerts (h : s.showsAlerts m) (r : Requester) (rq : Request) : (s.present r rq).showsAlerts m := by
  unfold State.present
  split
  · exact h
  · exact State.answer_showsAlerts h _ _ _

theorem exec_keeps_alerts {c : Instr} (h : s.showsAlerts m) (run : exec c s = .next t) (notWrite : ∀ v, c ≠ .alertWrite v)
    (notDevice : c ≠ .deviceReset) (notEngine : c ≠ .engineReset)
    (noReset : c = .timebaseTick → s.eng.resetPending = false) : t.showsAlerts m := by
  cases c with simp only [exec] at run
  | alertWrite v => exact absurd rfl (notWrite v)
  | deviceReset => exact absurd rfl notDevice
  | engineReset => exact absurd rfl notEngine
  | prepare =>
    exact act_keeps run h (State.command_keeps (fun _ => h) fun _ _ => State.beginPrepare_showsAlerts (by exact h))
  | startCommand =>
    exact act_keeps run h (State.command_keeps (fun _ => h) fun _ _ => State.startSession_showsAlerts (by exact h))
  | stopCommand =>
    exact act_keeps (P := State.showsAlerts m) run h (State.command_keeps (fun _ => h) fun _ _ =>
      State.showsAlerts_of_win h (by simp [State.takeStop]))
  | abort =>
    exact act_keeps run h (State.command_keeps (fun _ => h) fun _ _ => State.takeAbort_showsAlerts (by exact h))
  | nudge =>
    refine act_keeps (P := State.showsAlerts m) run h (State.showsAlerts_of_win h ?_)
    unfold State.nudge
    (repeat' split) <;> simp
  | reset =>
    refine act_keeps (P := State.showsAlerts m) run h (State.showsAlerts_of_win h ?_)
    unfold State.beginReset
    split <;> rfl
  | unknownCommand => exact act_keeps (P := State.showsAlerts m) run h (by split <;> exact h)
  | baseWrite =>
    refine act_keeps (P := State.showsAlerts m) run h ?_
    unfold State.writeBase
    split <;> exact h
  | deviceResetEnd =>
    cases run
    exact State.showsAlerts_of_win h (by simp)
  | startLineEdge level => exact act_keeps run h (State.sampleStart_showsAlerts (by exact h) level)
  | timebaseTick => exact act_keeps run h (State.takeTick_showsAlerts h (noReset rfl))
  | timebaseEnd => exact act_keeps run h (State.takeTimebaseEnd_showsAlerts h)
  | tickArrival =>
    exact act_keeps (P := State.showsAlerts m) run (by exact h) (State.showsAlerts_of_win h (by simp))
  | expiry => exact act_keeps run h (State.takeExpiry_showsAlerts h)
  | laneHeadOffer i => exact act_keeps run h (State.offerHead_showsAlerts h i)
  | set | start | stop | pause | resume | stage | fire | snapshot | powerOn | powerOff | reference | convert | note
  | closePage | endCue =>
    exact act_keeps run h (State.takeCue_keeps h (State.takeExpiry_showsAlerts h) _)
  | requestPresent r =>
    exact act_keeps run h (State.presentRequest_keeps h (fun i => State.laneFault_showsAlerts h i _ _)
      (fun _ _ _ _ _ => State.present_showsAlerts (by exact h) _ _)
      (fun _ _ _ _ _ => State.present_showsAlerts (by exact h) _ _) fun _ _ _ => State.present_showsAlerts h _ _)
  | response =>
    exact act_keeps run h (State.takeResponse_keeps h fun _ _ => State.answer_showsAlerts (by exact h) _ _ _)
  | timeout =>
    exact act_keeps run h (State.takeTimeout_keeps h fun _ _ => State.answer_showsAlerts (by exact h) _ _ _)
  | timeLoRead => exact act_keeps (P := State.showsAlerts m) run h h
  | alertEnableWrite => exact act_keeps (P := State.showsAlerts m) run h h
  | busAccept => exact act_keeps (P := State.showsAlerts m) run h h
  | ignoredRegisterWrite => exact act_keeps (P := State.showsAlerts m) run h h
  | _ =>
    refine act_keeps (P := State.showsAlerts m) run h (State.showsAlerts_of_win h ?_)
    simp

end

/-- Settles O7: every event sets alert bits and clears none. -/
theorem alertBitsStay : Obligations.AlertBitsStay :=
  fun _ s _ run notWrite notDevice notEngine noReset =>
    exec_keeps_alerts (m := s.win.alert) (fun _ bit => bit) run notWrite notDevice notEngine noReset

end Sys2Proof.Machine
end

section
/-! PROOFS. NUDGE, the engine reset and the tick of the timebase (R78, R154, R165, R166, R176). -/

namespace Sys2Proof.Machine

/-! ## NUDGE (R165) -/

theorem State.starveCount_writerReread (s : State) : s.writerReread.wr.starveCount = s.wr.starveCount := by
  unfold State.writerReread Writer.askReread
  (repeat' split) <;> rfl

/-- A writer that is not STARVED, or whose last reread of a drain is made, takes no request. -/
theorem State.writerReread_of_not_asked {s : State} (h : s.wr.state ≠ .starved ∨ s.lastRereadMade = true) :
    s.writerReread = s := by
  unfold State.writerReread
  rw [if_neg]
  rcases h with h | h <;> simp [h]

theorem State.lastRereadMade_iff (s : State) :
    s.lastRereadMade = true ↔ s.eng.state = .draining ∧ 16 ≤ s.wr.starveCount := by
  simp only [State.lastRereadMade, Bool.and_eq_true, beq_iff_eq, decide_eq_true_eq]
  rfl

theorem State.nudge_of_writer {s : State} (pending : s.eng.resetPending = false) (nudges : s.nudgesWriter = true) :
    s.nudge = s.lanesReread.writerReread := by
  simp [State.nudge, pending, nudges]

theorem State.nudge_of_lanes {s : State} (pending : s.eng.resetPending = false) (nudges : s.nudgesWriter = false) :
    s.nudge = s.lanesReread := by
  simp [State.nudge, pending, nudges]

theorem State.nudge_eq (s : State) :
    s.nudge = { s with loader := { s.loader with lanes := s.nudge.loader.lanes }, wr := s.nudge.wr } := by
  unfold State.nudge State.writerReread
  (repeat' split) <;> rfl

/-- Where a NUDGE gives the writer no request. -/
theorem State.nudge_wr_of_not_asked {s : State}
    (h : s.wr.state ≠ .starved ∨ s.eng.state = .off ∨ s.eng.state = .ended ∨ s.eng.state = .faulted ∨
      (s.eng.state = .preparing ∧ s.eng.aborting = true) ∨ (s.eng.state = .draining ∧ 16 ≤ s.wr.starveCount)) :
    s.nudge.wr = s.wr := by
  by_cases pending : s.eng.resetPending = true
  · rw [State.nudge_of_resetPending pending]
  have free : s.eng.resetPending = false := by simpa using pending
  by_cases nudges : s.nudgesWriter = true
  · rw [State.nudge_of_writer free nudges, State.writerReread_of_not_asked]
    · rfl
    · rcases h with h | h | h | h | ⟨h, h'⟩ | h
      · exact .inl h
      · simp [State.nudgesWriter, h] at nudges
      · simp [State.nudgesWriter, h] at nudges
      · simp [State.nudgesWriter, h] at nudges
      · simp [State.nudgesWriter, h, h'] at nudges
      · exact .inr (s.lanesReread.lastRereadMade_iff.mpr h)
  · rw [State.nudge_of_lanes free (by simpa using nudges)]
    rfl

/-- Settles O16: a NUDGE is a reread request to each lane and to the writer, as the scan event's. -/
theorem nudgeAsksRereads : Obligations.NudgeAsksRereads := by
  intro s free
  refine ⟨_, exec_nudge s free, State.nudge_eng _, ?_, fun pending => ?_, fun noReset => ⟨fun i => ?_, fun h => ?_, fun starved works => ?_⟩,
    ?_⟩
  · unfold State.nudge
    (repeat' split) <;> simp [State.starveCount_writerReread]
  · rw [State.nudge_of_resetPending (s := s.setResult .accepted) pending]
    rfl
  · have asked := (s.setResult .accepted).laneAsked_lanesReread i
    have same : (s.setResult .accepted).nudge.lane i = (s.setResult .accepted).lanesReread.lane i := by
      unfold State.nudge
      rw [if_neg (by simp [noReset])]
      split <;> simp [State.lane]
    rw [same]
    exact asked
  · exact State.nudge_wr_of_not_asked (s := s.setResult .accepted) h
  · have nudges : (s.setResult .accepted).nudgesWriter = true := by
      rcases works with ⟨state, aborting⟩ | state | state | ⟨state, _⟩ <;> simp [State.nudgesWriter, state]
      exact aborting
    have notLast : (s.setResult .accepted).lanesReread.lastRereadMade = false := by
      rw [← Bool.not_eq_true, State.lastRereadMade_iff]
      rintro ⟨draining, count⟩
      have draining : s.eng.state = .draining := draining
      have count : 16 ≤ s.wr.starveCount := count
      rcases works with ⟨state, _⟩ | state | state | ⟨_, below⟩
      · simp [state] at draining
      · simp [state] at draining
      · simp [state] at draining
      · omega
    have asked := State.writerAsked_writerReread (s := (s.setResult .accepted).lanesReread) starved notLast
    rw [State.nudge_of_writer (s := s.setResult .accepted) noReset nudges]
    exact asked
  · have frame := (s.setResult .accepted).nudge_eq
    rw [State.nudge_eng]
    exact frame

/-! ## Engine resets (R166, R176) -/

theorem Port.quietBus_iff (p : Port) : p.quietBus = true ↔ ∀ r, (p.request r).isOutstanding = false := by
  simp only [Port.quietBus, Bool.and_eq_true, Bool.not_eq_true']
  constructor
  · rintro ⟨⟨loader, writer⟩, engine⟩ r
    cases r <;> assumption
  · exact fun h => ⟨⟨h .loader, h .writer⟩, h .engine⟩

theorem State.takeEngineReset_of_due {s : State} (pending : s.eng.resetPending = true)
    (quiet : ∀ r, (s.port.request r).isOutstanding = false) : s.takeEngineReset = s.engineReset := by
  simp [State.takeEngineReset, State.engineResetDue, pending, (Port.quietBus_iff _).mpr quiet]

/-- Settles O17: RESET withdraws what waits, and the engine reset is due once nothing is outstanding. -/
theorem resetCommandAndEngineReset : Obligations.ResetCommandAndEngineReset := by
  refine ⟨fun s free => ⟨_, exec_reset s free, ?_⟩, fun s free => ⟨fun pending quiet => ?_, fun notDue => ?_⟩⟩
  · by_cases pending : s.eng.resetPending = true
    · rw [State.beginReset_of_resetPending (s := s.setResult .accepted) pending]
      refine ⟨?_, fun _ => rfl, fun no => absurd pending (by simp [no]), rfl⟩
      simp only [State.setResult]
      rw [← pending]
    · have begun : (s.setResult .accepted).beginReset = State.withdrawAll
          { s with eng := { s.eng with result := .accepted, resetPending := true } } := if_neg pending
      rw [begun]
      refine ⟨rfl, fun yes => absurd yes pending, fun _ => ⟨rfl, fun r => ?_, fun r => ?_, rfl, rfl, rfl⟩, rfl⟩ <;>
        cases r <;> rfl
  · refine ⟨_, exec_engineReset s free, ?_⟩
    rw [State.takeEngineReset_of_due pending quiet]
    have noInt : s.engineReset.int = false := by simp [State.int, State.engineReset, RegisterWindow.reset]
    exact ⟨State.blocksReset_of_eq rfl rfl rfl rfl rfl rfl rfl rfl, rfl, rfl, rfl, rfl, rfl, rfl, rfl, rfl, rfl, rfl, rfl, rfl,
      noInt, rfl, rfl, rfl, rfl, rfl⟩
  · rw [exec_engineReset s free, State.takeEngineReset_of_not_due notDue]

/-! ## The tick (R78, R154) -/

/-- The tick's end: the timebase rises, the tick counts toward the scan period, and each line presents its channel. -/
theorem State.takeTick_spec (s : State) :
    s.takeTick.tb = { s.finishTick.tb with
      count := if s.finishTick.tb.runs && s.finishTick.tb.count != BitVec.allOnes 48 then s.finishTick.tb.count + 1
        else s.finishTick.tb.count
      scanCount := if s.finishTick.scans then s.finishTick.tb.scanCount + 1 else s.finishTick.tb.scanCount } ∧
    (∀ ch, (s.takeTick.chan ch).arrived = !s.finishTick.sessionAlive) ∧
    (∀ ch : ChanId, s.takeTick.pins.tout[ch] = (s.takeTick.chan ch).output) := by
  unfold State.takeTick
  generalize s.finishTick = u
  refine ⟨rfl, fun ch => ?_, fun ch => ?_⟩
  · simp only [State.beginTick, State.chan_mapChans]
    rfl
  · simp only [State.beginTick, State.chan_mapChans]
    simp [State.presentOutputs, State.chan, State.mapChans]

theorem State.takeEngineReset_lines (s : State) :
    s.takeEngineReset.pins.tin = s.pins.tin ∧ s.takeEngineReset.pins.start = s.pins.start := by
  unfold State.takeEngineReset
  split <;> exact ⟨rfl, rfl⟩

/-- The input lines keep their levels in a tick. -/
theorem State.takeTick_lines (s : State) :
    s.takeTick.pins.tin = s.pins.tin ∧ s.takeTick.pins.start = s.pins.start := by
  have tin : s.takeTick.pins.tin = s.takeEngineReset.pins.tin := by
    simp [State.takeTick, State.beginTick, State.presentOutputs, State.finishTick]
  have start : s.takeTick.pins.start = s.takeEngineReset.pins.start := by
    simp [State.takeTick, State.beginTick, State.presentOutputs, State.finishTick]
  exact ⟨tin.trans s.takeEngineReset_lines.1, start.trans s.takeEngineReset_lines.2⟩

theorem State.scans_iff (s : State) :
    s.scans = true ↔ s.eng.state = .armed ∨ s.eng.state = .running ∨ s.eng.state = .draining := by
  cases state : s.eng.state <;> simp [State.scans, state]

theorem State.sessionAlive_iff (s : State) :
    s.sessionAlive = true ↔ s.eng.state = .armed ∨ s.eng.state = .running ∨ s.eng.state = .draining ∨
      (s.eng.state = .preparing ∧ s.eng.checked = true) := by
  cases state : s.eng.state <;> simp [State.sessionAlive, state]

/-- A drain that begins in RUNNING leaves the session alive and the ticks counted, as they were. -/
theorem State.scans_eq_of_state {s t : State}
    (h : t.eng.state = s.eng.state ∧ t.eng.checked = s.eng.checked ∨ s.eng.state = .running ∧ t.eng.state = .draining) :
    t.scans = s.scans ∧ t.sessionAlive = s.sessionAlive := by
  rcases h with ⟨state, checked⟩ | ⟨running, draining⟩
  · simp only [State.scans, State.sessionAlive, state, checked, and_self]
  · simp only [State.scans, State.sessionAlive, running, draining, and_self]

/-- Settles O18: what the events of the ending tick leave (Laws/Tick), and the rise of the timebase after them. -/
theorem tickAdvancesTimebase : Obligations.TickAdvancesTimebase := by
  intro s free
  obtain ⟨tb, arrived, tout⟩ := s.takeTick_spec
  refine ⟨_, exec_timebaseTick s free, fun runs noReset below => ?_, fun held noReset => ?_, fun noReset below => ?_, tout,
    s.takeTick_lines.1, s.takeTick_lines.2, s.takeTick_keeps.1⟩
  · obtain ⟨fruns, fcount, -, -⟩ := s.finishTick_spec noReset fun _ => below
    have notLast : s.tb.count ≠ BitVec.allOnes 48 := fun last => by
      rw [last] at below
      simp at below
    rw [tb]
    simp only [fruns, fcount, runs]
    refine ⟨trivial, ?_⟩
    rw [if_pos (by simpa using notLast)]
    exact BitVec.toNat_add_of_lt (by simpa using below)
  · obtain ⟨fruns, fcount, -, -⟩ := s.finishTick_spec noReset fun runs => absurd runs (by simp [held])
    rw [tb]
    simp [fruns, fcount, held]
  · obtain ⟨-, -, fstate, fscan⟩ := s.finishTick_spec noReset below
    obtain ⟨scans, alive⟩ := State.scans_eq_of_state fstate
    refine ⟨fun h ch => ?_, fun h => ?_, fun h1 h2 h3 => ?_⟩
    · rw [arrived, alive, s.sessionAlive_iff.mpr h]
      rfl
    · have counts := s.scans_iff.mpr h
      rw [tb]
      simp only [scans, counts, if_true, fscan, true_and]
      split <;> rfl
    · have idle : s.scans = false := by
        rw [← Bool.not_eq_true, s.scans_iff]
        simp [h1, h2, h3]
      rw [tb]
      simp [scans, idle, fscan]

end Sys2Proof.Machine
end

section
/-! PROOFS. How a session starts and how a drain begins (sections 7.5, 7.6; R21, R75, R156, R157). -/

namespace Sys2Proof.Machine

/-! ## The entries due at the start (R17, R21) -/

theorem State.expiredEntry_of_not_running {s : State} (h : s.eng.state ≠ .running) : s.expiredEntry = none := by
  unfold State.expiredEntry
  split
  · simp [h]
  · rfl

theorem State.expiredEntry_of_none_due {s : State} (h : ∀ e ∈ s.cal, s.now.toNat < e.cue.due.toNat) :
    s.expiredEntry = none := by
  unfold State.expiredEntry
  split
  · next e rest cal =>
    have := h e (by simp [cal])
    rw [if_neg (by simp; omega)]
  · rfl

theorem State.takeExpiry_of_due {s : State} {e : Entry} {rest : List Entry} (running : s.eng.state = .running)
    (cal : s.cal = e :: rest) (due : e.cue.due.toNat ≤ s.now.toNat) :
    s.takeExpiry = State.handleEntry { s with cal := rest } e := by
  have expired : s.expiredEntry = some e := by simp [State.expiredEntry, cal, running, due]
  simp [State.takeExpiry, expired, cal]

theorem State.endsNow_iff_of_due {s : State} {e : Entry} (due : e.cue.due.toNat ≤ s.now.toNat) :
    s.endsNow e ↔ e.cue.action = .engine .endCue ∧ ¬ (e.cue.due.toNat < s.now.toNat ∧ e.cue.late = .skip) := by
  have late : e.cue.late = .runLate ↔ e.cue.late ≠ .skip := by cases e.cue.late <;> simp
  have same : e.cue.due = s.now ↔ e.cue.due.toNat = s.now.toNat := BitVec.toNat_inj.symm
  simp only [State.endsNow, late, same]
  refine and_congr_right fun _ => ?_
  constructor
  · rintro (h | ⟨h, h'⟩) ⟨h1, h2⟩
    · omega
    · exact h' h2
  · intro h
    by_cases before : e.cue.due.toNat < s.now.toNat
    · exact .inr ⟨before, fun skip => h ⟨before, skip⟩⟩
    · exact .inl (by omega)

theorem State.not_endsNow_of_not_due {s : State} {e : Entry} (h : s.now.toNat < e.cue.due.toNat) : ¬ s.endsNow e := by
  rintro ⟨_, due | ⟨before, _⟩⟩
  · rw [due] at h
    omega
  · omega

/-- In Calendar order no entry stands before one due earlier. -/
theorem State.due_le_of_calendarInOrder {s : State} {e : Entry} {rest : List Entry} (order : s.calendarInOrder)
    (cal : s.cal = e :: rest) : ∀ x ∈ rest, e.cue.due.toNat ≤ x.cue.due.toNat := by
  intro x hx
  have sorted := s.calendarInOrder_iff.mp order
  rw [cal, List.pairwise_cons] at sorted
  have := sorted.1 x hx
  omega

/-- Every entry due is handled, in order: none is left; an END cue among them that is dispatched begins the drain. -/
theorem State.takeExpiries_of_order (n : Nat) (s : State) (places : s.cal.length ≤ n) (order : s.calendarInOrder)
    (running : s.eng.state = .running) (noReset : s.eng.resetPending = false) :
    (∀ e ∈ (s.takeExpiries n).cal, s.now.toNat < e.cue.due.toNat) ∧
      ((∀ e ∈ s.cal, ¬ s.endsNow e) → (s.takeExpiries n).eng = s.eng ∧
        (s.takeExpiries n).cal = s.cal.filter fun e => decide (s.now.toNat < e.cue.due.toNat)) ∧
      ((∃ e ∈ s.cal, s.endsNow e) → (s.takeExpiries n).eng.state = .draining ∧
        (s.takeExpiries n).eng.endCause = .endCue ∧ (s.takeExpiries n).cal = []) := by
  induction n generalizing s with
  | zero =>
    have empty : s.cal = [] := List.length_eq_zero_iff.mp (by omega)
    simp [State.takeExpiries, empty]
  | succ n ih =>
    cases cal : s.cal with
    | nil =>
      rw [State.takeExpiries_of_none (State.expiredEntry_of_none_due (by simp [cal]))]
      simp [cal]
    | cons e rest =>
      by_cases due : e.cue.due.toNat ≤ s.now.toNat
      · rw [State.takeExpiries_succ, State.takeExpiry_of_due running cal due]
        obtain ⟨ends, stays⟩ := State.handleEntry_spec { s with cal := rest } e noReset
        have dispatched : s.endsNow e ↔ _ := State.endsNow_iff_of_due due
        have now : (State.handleEntry { s with cal := rest } e).now = s.now := by simp [State.now]
        generalize State.handleEntry { s with cal := rest } e = u at *
        by_cases first : s.endsNow e
        · obtain ⟨empty, draining, cause⟩ := ends (dispatched.mp first)
          rw [State.takeExpiries_of_none (State.expiredEntry_of_not_running (by simp [draining]))]
          exact ⟨by simp [empty], fun no => absurd first (no e (by simp)), fun _ => ⟨draining, cause, empty⟩⟩
        · obtain ⟨ucal, ueng⟩ := stays (mt dispatched.mpr first)
          have ucal : u.cal = rest := ucal
          have ueng : u.eng = s.eng := ueng
          have uorder : u.calendarInOrder := by
            have sorted : s.cal.Pairwise _ := order
            rw [cal, List.pairwise_cons] at sorted
            show u.cal.Pairwise _
            rw [ucal]
            exact sorted.2
          have step := ih u (by rw [ucal]; simp [cal] at places; omega) uorder (by rw [ueng]; exact running)
            (by rw [ueng]; exact noReset)
          have same : ∀ x, u.endsNow x ↔ s.endsNow x := fun x => by simp only [State.endsNow, now]
          simp only [same, ucal, ueng, now] at step
          obtain ⟨left, none, some⟩ := step
          refine ⟨left, fun no => ?_, fun ⟨x, hx, yes⟩ => ?_⟩
          · obtain ⟨eng, filtered⟩ := none fun x hx => no x (by simp [hx])
            exact ⟨eng, by rw [filtered, List.filter_cons_of_neg (by simpa using due)]⟩
          · rcases List.mem_cons.mp hx with rfl | hx
            · exact absurd yes first
            · exact some ⟨x, hx, yes⟩
      · have notDue : ∀ x ∈ e :: rest, s.now.toNat < x.cue.due.toNat := by
          intro x hx
          rcases List.mem_cons.mp hx with rfl | hx
          · omega
          · have := State.due_le_of_calendarInOrder order cal x hx
            omega
        rw [State.takeExpiries_of_none (State.expiredEntry_of_none_due (by rw [cal]; exact notDue)), cal]
        refine ⟨notDue, fun _ => ⟨rfl, (List.filter_eq_self.mpr fun x hx => by simpa using notDue x hx).symm⟩,
          fun ⟨x, hx, yes⟩ => absurd yes (State.not_endsNow_of_not_due (notDue x hx))⟩

/-- With one entry due, the run of expiries is that one EXPIRY. -/
theorem State.takeExpiries_of_one_due {s : State} {e : Entry} {rest : List Entry} (running : s.eng.state = .running)
    (cal : s.cal = e :: rest) (due : e.cue.due.toNat ≤ s.now.toNat)
    (others : ∀ x ∈ rest, s.now.toNat < x.cue.due.toNat) (n : Nat) : s.takeExpiries (n + 1) = s.takeExpiry := by
  rw [State.takeExpiries_succ, State.takeExpiries_of_none]
  refine State.expiredEntry_of_none_due ?_
  have now : s.takeExpiry.now = s.now := by simp [State.now]
  rw [now, State.takeExpiry_of_due running cal due]
  intro x hx
  exact others x ((State.handleEntry_cal_sublist _ e).subset hx)

/-! ## The start of a session (R156) -/

/-- A command whose effect is the start of the session from `r`, a running state over the Calendar of `s`. -/
theorem State.startsBy_of_run {s r : State} {c : Instr}
    (run : exec c s = .next (if r.tb.count = BitVec.allOnes 48 then r else r.takeExpiries r.cal.length)) (free : r.free)
    (running : r.eng.state = .running) (noReset : r.eng.resetPending = false) (now : r.tb.count = s.tb.count)
    (cal : r.cal = s.cal) (params : r.params = s.params) (port : r.port = s.port) (links : r.links = s.links) :
    s.startsBy c r := by
  have now' : r.now = s.now := now
  have last : r.tb.count = BitVec.allOnes 48 ↔ s.now.toNat = 2 ^ 48 - 1 := by
    rw [now]
    exact BitVec.toNat_inj.symm
  refine ⟨_, run, fun noneDue => ?_, fun atLast => if_pos (last.mpr atLast), fun notLast => ?_, ?_⟩
  · split
    · rfl
    · exact State.takeExpiries_of_none (State.expiredEntry_of_none_due (by rw [now', cal]; exact noneDue)) _
  · rw [if_neg (mt last.mp notLast)]
    refine ⟨by rw [← cal]; exact afterExpiries_takeExpiries _ _ free, fun e rest shape due others => ?_, fun order => ?_⟩
    · rw [exec_expiry r free, cal, shape, List.length_cons,
        State.takeExpiries_of_one_due running (cal.trans shape) (by rw [now']; exact due) (by rw [now']; exact others)]
    · have rorder : r.calendarInOrder := by
        show r.cal.Pairwise _
        rw [cal]
        exact order
      have handled := State.takeExpiries_of_order r.cal.length r le_rfl rorder running noReset
      have same : ∀ x, r.endsNow x ↔ s.endsNow x := fun x => by simp only [State.endsNow, now']
      simpa only [same, now', cal] using handled
  · split <;> simp [params, port, links]

theorem State.startEdge_iff (s : State) (level : Level) : s.startEdge level = true ↔
    (s.params.startSource = .lineRise ∧ s.eng.lastStart = .low ∧ level = .high) ∨
      (s.params.startSource = .lineFall ∧ s.eng.lastStart = .high ∧ level = .low) := by
  cases source : s.params.startSource <;> cases last : s.eng.lastStart <;> cases level <;>
    simp [State.startEdge, source, last, edgeOf]

/-- Settles O13: START and the selected edge both start the session, which handles the entries due in order. -/
theorem sessionStarts : Obligations.SessionStarts := by
  refine ⟨fun s free yes => ?_, fun s level free => ?_⟩
  · obtain ⟨armed, noReset⟩ := s.accepts_startCommand_iff.mp yes
    refine State.startsBy_of_run ?_ free rfl noReset rfl rfl rfl rfl rfl
    rw [exec_startCommand s free, State.command_of_allowed _ ⟨armed, noReset⟩]
    rfl
  · intro alive selected
    have run := exec_startLineEdge level s free
    have aliveIff : (s.startLine level).sessionAlive = true ↔ alive := State.sessionAlive_iff _
    have edge : (s.startLine level).startEdge level = true ↔ selected := State.startEdge_iff _ _
    refine ⟨fun armed edgeSelected noReset => ?_, fun isAlive other => ?_, fun dead => ?_⟩
    · refine State.startsBy_of_run (run.trans ?_) free rfl noReset rfl rfl rfl rfl rfl
      have starts : ((s.startLine level).eng.state == .armed && (s.startLine level).startEdge level &&
          !(s.startLine level).eng.resetPending) = true := by
        simp [armed, edge.mpr edgeSelected, noReset]
      rw [State.sampleStart, if_pos (aliveIff.mpr (.inl armed))]
      simp only [starts, if_true]
      rfl
    · have starts : ((s.startLine level).eng.state == .armed && (s.startLine level).startEdge level &&
          !(s.startLine level).eng.resetPending) = false := by
        rw [← Bool.not_eq_true]
        simp only [Bool.and_eq_true, edge]
        rcases other with h | h | h <;> simp [h]
      rw [run, State.sampleStart, if_pos (aliveIff.mpr isAlive)]
      simp only [starts]
      rfl
    · rw [run, State.sampleStart, if_neg (mt aliveIff.mp dead)]
      rfl

/-! ## The beginning of a drain (R48, R120, R157) -/

theorem State.beginDrain_lane (s : State) (c : EndCause) (i : LaneId) :
    (s.beginDrain c).lane i = (s.laneRetired s.cal i).stopped.cancelHead := by
  have cancelled : ∀ u : State, u.cal = s.cal → u.loader = s.loader →
      u.cancelCues.lane i = (s.laneRetired s.cal i).stopped.cancelHead := fun u cal loader => by
    rw [State.cancelCues, State.stopLanes_lane, State.cancelCalendar, State.cancelEntries_lane]
    simp only [State.laneRetired, State.lane, cal, loader]
  have loader : (s.beginDrain c).lane i = (State.cancelCues { s with eng := { s.eng with
      state := .draining, endCause := c, loaderQuiet := false, pathComplete := false, markerPlaced := false } }).lane i := by
    simp [State.lane, State.beginDrain, State.stopChannels, State.mapChans]
  rw [loader]
  exact cancelled _ rfl rfl

/-- A retirement of a lane whose head is absent or accepted counts once and keeps the head. -/
theorem Lane.retire_of_not_held {l : Lane} (h : l.head = none ∨ l.acceptedHead.isSome) (ref : Word) :
    (l.retire ref).head = l.head ∧ (l.retire ref).cuesRetired = l.cuesRetired + 1 := by
  unfold Lane.retire Lane.releaseHeld
  cases head : l.head with
  | none => simp [Lane.countRetired, head]
  | some x =>
    cases body : x.body with
    | accepted c => simp [Lane.countRetired, head, body]
    | held o => simp [Lane.acceptedHead, head, body] at h

theorem Lane.retireAll_of_not_held (entries : List Entry) {l : Lane} (h : l.head = none ∨ l.acceptedHead.isSome) :
    (entries.foldl (fun m e => m.retire e.trailRef) l).head = l.head ∧
      (entries.foldl (fun m e => m.retire e.trailRef) l).cuesRetired =
        l.cuesRetired + BitVec.ofNat 32 entries.length := by
  induction entries generalizing l with
  | nil => simp
  | cons e rest ih =>
    obtain ⟨head, count⟩ := Lane.retire_of_not_held h e.trailRef
    have next : (l.retire e.trailRef).head = none ∨ (l.retire e.trailRef).acceptedHead.isSome := by
      rw [head, Lane.retire_acceptedHead]
      exact h
    obtain ⟨heads, counts⟩ := ih next
    refine ⟨heads.trans head, counts.trans ?_⟩
    rw [count, List.length_cons, Nat.add_comm, BitVec.ofNat_add, BitVec.add_assoc]
    rfl

/-- Each cue a session stop cancels counts as retired for its lane (R23, R48). -/
theorem State.cuesRetired_of_stop (s : State) {i : LaneId} (h : (s.lane i).head = none ∨ (s.lane i).acceptedHead.isSome) :
    ((s.laneRetired s.cal i).stopped.cancelHead).cuesRetired =
      (s.lane i).cuesRetired + BitVec.ofNat 32 (s.cancelledOf s.cal i) := by
  obtain ⟨head, count⟩ := Lane.retireAll_of_not_held (s.cal.filter fun e => e.lane == i) h
  have accepted := (s.laneRetired_frame s.cal i).1
  have count : (s.laneRetired s.cal i).cuesRetired = _ := count
  generalize s.laneRetired s.cal i = l at *
  unfold Lane.cancelHead
  rw [Lane.stopped_acceptedHead, accepted, State.cancelledOf]
  cases has : (s.lane i).acceptedHead with
  | none => simp [Lane.stopped_cuesRetired, count]
  | some x =>
    have retired := (Lane.retire_of_not_held (l := { l.stopped with head := none }) (.inl rfl) x.1.trailRef).2
    refine retired.trans ?_
    show l.stopped.cuesRetired + 1 = _
    rw [Lane.stopped_cuesRetired, count, BitVec.ofNat_add, BitVec.add_assoc]
    rfl

theorem State.drainConverter_wr (s : State) : s.drainConverter.wr = s.wr.offered s.now (s.conv.drain s.now).2 := by
  simp only [State.drainConverter, State.offerAll_wr]
  rfl

theorem Converter.drain_records (c : Converter) (now : Tick) :
    (c.drain now).2 = c.queue.map fun r => .drop r.input r.source .sessionEnd r.tag now := rfl

theorem State.restartStarveCount_wr (s : State) :
    s.restartStarveCount.wr = { s.wr with starveCount := if s.wr.state = .starved then 0 else s.wr.starveCount } := by
  unfold State.restartStarveCount
  split <;> rfl

/-- The beginning of a drain offers the cancellations, then the drops, and a STARVED writer counts from 0. -/
theorem State.beginDrain_wr (s : State) (c : EndCause) : (s.beginDrain c).wr = s.wr.drained s.now (s.drainRecords s.cal) := by
  have cancelled : ∀ u : State, u.cal = s.cal → u.loader = s.loader → u.wr = s.wr → u.tb = s.tb →
      u.cancelCues.stopChannels.wr = s.wr.offered s.now (s.cancelRecords s.cal) := fun u cal loader wr tb => by
    have now : u.now = s.now := congrArg Timebase.count tb
    have records : u.cancelRecords u.cal = s.cancelRecords s.cal := by
      simp only [State.cancelRecords, State.cancelledOf, State.lane, cal, loader, now]
      rfl
    rw [State.wr_stopChannels, State.cancelCues_wr, records, wr, now]
  have drained : ∀ u : State, u.conv = s.conv → u.tb = s.tb → u.wr = s.wr.offered s.now (s.cancelRecords s.cal) →
      u.drainConverter.restartStarveCount.wr = s.wr.drained s.now (s.drainRecords s.cal) := fun u conv tb wr => by
    have now : u.now = s.now := congrArg Timebase.count tb
    rw [State.restartStarveCount_wr, State.drainConverter_wr, conv, now, wr, ← Writer.offered_append,
      Converter.drain_records]
    simp [Writer.drained, State.drainRecords]
  simp only [State.beginDrain]
  refine drained _ ?_ ?_ (cancelled _ rfl rfl rfl rfl) <;> simp [State.stopChannels, State.mapChans]

theorem Converter.drain_spec (c : Converter) (now : Tick) :
    (c.drain now).1.queue = [] ∧ (c.drain now).1.closing = some .sessionEnd ∧ (c.drain now).1.inFlight = c.inFlight ∧
      (c.inFlight = none → (c.drain now).1.power = .off) := by
  simp only [Converter.drain]
  cases flying : c.inFlight <;> simp [Converter.emptied]

theorem State.beginDrain_conv (s : State) (c : EndCause) : (s.beginDrain c).conv = (s.conv.drain s.now).1 := by
  have drained : ∀ u : State, u.conv = s.conv → u.tb = s.tb → u.drainConverter.restartStarveCount.conv =
      (s.conv.drain s.now).1 := fun u conv tb => by
    have now : u.now = s.now := congrArg Timebase.count tb
    simp [State.drainConverter, conv, now]
  simp only [State.beginDrain]
  refine drained _ ?_ ?_ <;> simp [State.stopChannels, State.mapChans]

/-- The session stop of one channel (R75). -/
theorem Channel.sessionStop_spec (c : Channel) :
    (c.mode = .unset → c.sessionStop = c) ∧ (c.mode = .stopped → c.sessionStop = { c with staged := none }) ∧
      (c.mode ≠ .unset → c.mode ≠ .stopped →
        c.sessionStop = { c with mode := .stopped, output := c.restLevel, staged := none, pausedFrom := none }) := by
  cases mode : c.mode <;> simp [Channel.sessionStop, mode, Channel.halt]

/-- Settles O14: STOP begins a drain, and each block takes the session stop. -/
theorem stopCommandDrains : Obligations.StopCommandDrains := by
  refine ⟨fun s free yes => ?_, Channel.sessionStop_spec⟩
  have run := exec_stopCommand s free
  rw [State.command_of_allowed _ (s.accepts_stopCommand_iff.mp yes), State.takeStop] at run
  generalize hcause : (if (s.setResult .accepted).eng.state = .armed then EndCause.notStarted else .stopCommand) = cause at run
  obtain ⟨queue, closing, flying, power⟩ := s.conv.drain_spec s.now
  have conv : ((s.setResult .accepted).beginDrain cause).conv = (s.conv.drain s.now).1 := State.beginDrain_conv _ _
  have lane : ∀ i, ((s.setResult .accepted).beginDrain cause).lane i = (s.laneRetired s.cal i).stopped.cancelHead :=
    fun i => State.beginDrain_lane _ _ i
  refine ⟨_, run, ?_, State.beginDrain_cal _ _, fun i => ?_, fun i => ⟨lane i, fun h => ?_⟩, State.beginDrain_wr _ _,
    fun ch => ?_, ?_, ?_, ?_, ?_, ?_⟩
  · have idle : ((s.setResult .accepted).conv.drain (s.setResult .accepted).now).1.idle = s.conv.inFlight.isNone :=
      congrArg Option.isNone flying
    rw [State.beginDrain_eng, idle, ← hcause]
    rfl
  · rw [lane i]
    exact Lane.stopped_cancelHead _
  · rw [lane i]
    exact s.cuesRetired_of_stop h
  · rw [State.chan_eq, State.beginDrain_chans, ← State.chan_eq, State.chan_stopChannels]
    rfl
  · rw [conv, queue]
  · rw [conv, closing]
  · rw [conv, flying]
  · rw [conv]
    exact power
  · simp

end Sys2Proof.Machine
end

section
/-! PROOFS. The tick arrival of a channel and the scan event (Chapters 3 and 4; R33, R54 to R61, R78 to R99, R134). -/

namespace Sys2Proof.Machine

/-! ## What the shape does to the output (R60, R61) -/

theorem Polarity.active_eq (p : Polarity) : p.active = if p = .activeHigh then .high else .low := by cases p <;> rfl

theorem Polarity.inactive_eq (p : Polarity) : p.inactive = if p = .activeHigh then .low else .high := by cases p <;> rfl

/-- The level a WAVE channel drives from a wrap on (R82). -/
theorem Settings.waveStart_eq (st : Settings) :
    st.waveStart = if (st.polarity = .activeHigh ↔ st.action ≠ 0) then .high else .low := by
  unfold Settings.waveStart
  cases st.polarity <;> by_cases zero : st.action = 0 <;> simp [Polarity.active, Polarity.inactive, zero]

/-- Settles O21: the A-match by shape and match action, and the wrap of a WAVE channel. -/
theorem shapeActsOnOutput : Obligations.ShapeActsOnOutput := by
  intro c st
  refine ⟨fun shape => ?_, fun shape => ?_, fun shape rearm => ?_, fun shape rearm => ?_, fun shape => ?_, fun u hu => ?_⟩
  · cases act : st.matchAction <;> simp [Channel.aMatch, shape, act]
  · simp [Channel.aMatch, shape, Polarity.inactive_eq]
  · simp [Channel.aMatch, shape, rearm, Polarity.inactive_eq]
  · simp [Channel.aMatch, shape, rearm]
  · simp [Channel.aMatch, shape]
  · obtain ⟨-, -, -, -, -, -, -, -, -, -, -, -, -, output⟩ := c.wrap_spec
    rw [output u hu, Settings.waveStart_eq]

/-! ## An input edge (R86, R96) -/

/-- The edge that a change of the line is. -/
theorem edgeOf_of_picks {i : InputEdge} {last level : Level} (h : i.picks last level) :
    edgeOf last level = some (if level = .high then .rise else .fall) ∧
      i.selects (if level = .high then .rise else .fall) = true := by
  rcases h with ⟨rfl, rfl, rfl | rfl⟩ | ⟨rfl, rfl, rfl | rfl⟩ <;> exact ⟨rfl, rfl⟩

theorem not_selects_of_not_picks {i : InputEdge} {last level : Level} {e : Edge} (h : ¬ i.picks last level)
    (edge : edgeOf last level = some e) : i.selects e = false := by
  cases last <;> cases level <;> cases edge <;> cases i <;> simp [InputEdge.picks, InputEdge.selects] at h ⊢

section
variable {c : Channel} {st : Settings} {last level : Level} (id : ChanId) (now : Tick)

theorem Channel.handleEdge_of_not_picked (settings : c.settings = some st)
    (h : ¬ (st.inputEdge.picks last level ∧ c.resumed = false)) : c.handleEdge id now (edgeOf last level) = (c, []) := by
  unfold Channel.handleEdge
  rw [settings]
  cases edge : edgeOf last level with dsimp only
  | some e =>
    rw [if_neg]
    by_cases picks : st.inputEdge.picks last level
    · have resumed : c.resumed = true := by simpa [picks] using h
      simp [resumed]
    · simp [not_selects_of_not_picks picks edge]

theorem Channel.handleEdge_of_picked (settings : c.settings = some st)
    (h : st.inputEdge.picks last level ∧ c.resumed = false) :
    c.handleEdge id now (edgeOf last level) =
      if st.shape = .capture ∧ c.mode = .running then
        (c, [.capture id (if level = .high then .rise else .fall) c.counter c.tag c.wrapCount now])
      else ((c.trigger now).1, []) := by
  obtain ⟨edge, selects⟩ := edgeOf_of_picks h.1
  unfold Channel.handleEdge
  rw [settings, edge]
  dsimp only
  rw [selects, h.2]
  rfl

/-- A trigger begins the pulse of an ARMED channel (R86). -/
theorem Channel.trigger_of_armed (settings : c.settings = some st) (shape : st.shape = .oneShot) (armed : c.mode = .armed) :
    (c.trigger now).1 = c.pulseBegun now (if st.polarity = .activeHigh then .high else .low) := by
  simp [Channel.trigger, settings, shape, armed, Channel.pulseBegun, Channel.pulseRestart, Polarity.active_eq]

/-- A trigger restarts a pulse under EXTEND (R87). -/
theorem Channel.trigger_of_extend (settings : c.settings = some st) (shape : st.shape = .oneShot)
    (pulsing : c.mode = .pulsing) (extend : st.retrigger = .extend) :
    (c.trigger now).1 = c.pulseBegun now c.output := by
  obtain ⟨mode, -, -, -, output, -⟩ := c.takeMarks_frame
  simp only [Channel.trigger, settings, shape, pulsing, extend, Channel.pulseBegun, Channel.pulseRestart]
  rw [← output, ← pulsing, ← mode]
  simp [pulsing]

/-- A trigger is ignored under IGNORE (R88). -/
theorem Channel.trigger_of_ignore (settings : c.settings = some st) (shape : st.shape = .oneShot)
    (pulsing : c.mode = .pulsing) (ignore : st.retrigger = .ignore) : (c.trigger now).1 = c := by
  simp [Channel.trigger, settings, shape, pulsing, ignore]

/-- An edge does nothing to a channel that is UNSET, STOPPED or PAUSED. -/
theorem Channel.handleEdge_of_idle (idle : c.mode = .unset ∨ c.mode = .stopped ∨ c.mode = .paused) (edge : Option Edge) :
    c.handleEdge id now edge = (c, []) := by
  have notTaken : (c.trigger now).1 = c := by
    unfold Channel.trigger
    rcases idle with idle | idle | idle <;> simp only [idle] <;> split <;> simp
  have notRunning : c.mode ≠ .running := by rcases idle with idle | idle | idle <;> simp [idle]
  unfold Channel.handleEdge
  split
  · simp [notRunning, notTaken]
  · rfl

/-! ## A clock event in a tick arrival (R57, R59, R99) -/

theorem Channel.count_of_not_counting (h : c.counting now = false) (edge : Option Edge) :
    c.count id now edge = (c, []) := by
  unfold Channel.count
  split
  · simp [h]
  · rfl

theorem Channel.counting_of_mode (running : c.mode = .running ∨ c.mode = .pulsing) :
    c.counting now = true ↔ ∀ r, c.restart = some r → r.toNat < now.toNat := by
  have mode : (c.mode == .running || c.mode == .pulsing) = true := by simpa using running
  unfold Channel.counting
  rw [mode]
  cases c.restart <;> simp

theorem Channel.count_of_no_event (settings : c.settings = some st) (counts : c.counting now = true) {edge : Option Edge}
    (h : (c.clock st edge).2 = false) : c.count id now edge = ((c.clock st edge).1, []) := by
  unfold Channel.count
  rw [settings]
  dsimp only
  rw [if_pos counts]
  generalize c.clock st edge = r at *
  obtain ⟨d, b⟩ := r
  cases h
  rfl

/-- The link delivery of an event, if a clock event brought one (R99). -/
def Channel.linksOf (c : Channel) (id : ChanId) : Option EventKind → List LinkDelivery
  | some kind => c.linkAt id kind
  | none => []

theorem Channel.count_of_event (settings : c.settings = some st) (counts : c.counting now = true) {edge : Option Edge}
    (h : (c.clock st edge).2 = true) :
    c.count id now edge = (((c.clock st edge).1.advance st).1,
      ((c.clock st edge).1.advance st).1.linksOf id ((c.clock st edge).1.advance st).2) := by
  unfold Channel.count
  rw [settings]
  dsimp only
  rw [if_pos counts]
  generalize c.clock st edge = r at *
  obtain ⟨d, b⟩ := r
  cases h
  dsimp only
  generalize d.advance st = a
  obtain ⟨a, _ | kind⟩ := a <;> rfl

/-- What a clock event leaves for the links and the edge that follow: the settings but for their marks, the tag, whether the
tick is a RESUME's, and the state of a channel that has no pulse to end. -/
def Channel.countedFrom (c d : Channel) (st : Settings) : Prop :=
  (∃ u, d.settings = some u ∧ u = { st with period := u.period, action := u.action }) ∧ d.tag = c.tag ∧
    d.resumed = c.resumed ∧ (st.shape ≠ .oneShot → d.mode = c.mode)

theorem Channel.clock_countedFrom (settings : c.settings = some st) (edge : Option Edge) :
    c.countedFrom (c.clock st edge).1 st := by
  unfold Channel.clock
  (repeat' split) <;> exact ⟨⟨st, settings, rfl⟩, rfl, rfl, fun _ => rfl⟩

theorem Channel.advance_countedFrom (settings : c.settings = some st) : c.countedFrom (c.advance st).1 st := by
  by_cases hw : st.wrapLimit = some (c.counter.toNat + 1)
  · obtain ⟨-, -, wsettings, -, mode, -, -, tag, -, -, -, -, resumed, -⟩ := c.wrap_spec
    rw [Channel.advance_of_wrap hw]
    refine ⟨?_, tag, resumed, fun _ => mode⟩
    rw [wsettings, Channel.takeMarks_settings, settings]
    cases c.staged <;> exact ⟨_, rfl, rfl⟩
  by_cases ha : c.counter.toNat + 1 = st.action.toNat
  · obtain ⟨msettings, -, -, -, -, tag, -, -, -, -, -, resumed⟩ :=
      ({ c with counter := st.action } : Channel).aMatch_frame st
    rw [Channel.advance_of_action hw ha]
    refine ⟨⟨st, msettings.trans settings, rfl⟩, tag, resumed, fun shape => ?_⟩
    unfold Channel.aMatch
    (repeat' split) <;> first | rfl | exact absurd (by assumption) shape
  · rw [Channel.advance_of_no_event hw ha]
    exact ⟨⟨st, settings, rfl⟩, rfl, rfl, fun _ => rfl⟩

/-- The link of an event, by the link field that the settings have for it (R99). -/
theorem Channel.linkAt_eq {d : Channel} (from_ : c.countedFrom d st) (kind : EventKind) :
    d.linkAt id kind =
      (let link := match kind with
        | .action => st.linkAction
        | .wrap => st.linkWrap
      if link = .none then [] else [{ source := id, kind, tag := c.tag, link }]) := by
  obtain ⟨⟨u, settings, same⟩, tag, -, -⟩ := from_
  simp only [Channel.linkAt, settings, tag]
  rw [same] <;> rfl

end

/-! ## A tick arrival (R54) -/

theorem State.offerAll_eq (s : State) (l : List Rec) : s.offerAll l = { s with wr := s.wr.offered s.now l } := by
  induction l generalizing s with
  | nil => rfl
  | cons r rest ih => exact ih _

/-- What a tick arrival changes: the line, the channel, the links under way and the writer. -/
theorem exec_tickArrival_eq {s : State} {ch : ChanId} (level : Level) (free : s.free) (alive : s.sessionAlive = true)
    (due : (s.chan ch).arrived = false) :
    exec (.tickArrival ch level) s = .next { s with
      pins := { s.pins with tin := s.pins.tin.set ch.val level ch.isLt }
      chans := s.chans.set ch.val ((s.chan ch).arrival ch s.now level).1 ch.isLt
      links := s.links ++ ((s.chan ch).arrival ch s.now level).2.1
      wr := s.wr.offered s.now ((s.chan ch).arrival ch s.now level).2.2 } := by
  have arrivalDue : (s.inputLine ch level).arrivalDue ch = true := by
    have same : (s.inputLine ch level).arrivalDue ch = (s.sessionAlive && !(s.chan ch).arrived) := rfl
    rw [same, alive, due]
    rfl
  rw [exec_tickArrival ch level s free, State.takeArrival, if_pos arrivalDue]
  simp only [State.offerAll_eq]
  rfl

section
variable {c : Channel} {st : Settings} (id : ChanId) (now : Tick) (level : Level)

/-- The arrival of a channel that a tick counts for, taken apart: the clock event, then the edge. -/
theorem Channel.arrival_eq (c : Channel) :
    c.arrival id now level =
      (let counted := Channel.count { c with lastSample := level, arrived := true } id now (edgeOf c.lastSample level)
      let handled := counted.1.handleEdge id now (edgeOf c.lastSample level)
      ({ handled.1 with resumed := false }, counted.2, handled.2)) := rfl

theorem Channel.arrival_of_idle (idle : c.mode = .unset ∨ c.mode = .stopped ∨ c.mode = .paused) :
    c.arrival id now level = ({ c with lastSample := level, arrived := true, resumed := false }, [], []) := by
  have notCounting : Channel.counting { c with lastSample := level, arrived := true } now = false := by
    rcases idle with idle | idle | idle <;> simp [Channel.counting, idle]
  rw [Channel.arrival_eq, Channel.count_of_not_counting _ _ notCounting]
  dsimp only
  rw [Channel.handleEdge_of_idle id now (c := { c with lastSample := level, arrived := true }) idle]

theorem Channel.arrival_of_armed (settings : c.settings = some st) (armed : c.mode = .armed) (shape : st.shape = .oneShot) :
    (st.inputEdge.picks c.lastSample level ∧ c.resumed = false →
      c.arrival id now level = ({ Channel.pulseBegun { c with lastSample := level, arrived := true } now
        (if st.polarity = .activeHigh then .high else .low) with resumed := false }, [], [])) ∧
    (¬ (st.inputEdge.picks c.lastSample level ∧ c.resumed = false) →
      c.arrival id now level = ({ c with lastSample := level, arrived := true, resumed := false }, [], [])) := by
  have notCounting : Channel.counting { c with lastSample := level, arrived := true } now = false := by
    simp [Channel.counting, armed]
  rw [Channel.arrival_eq, Channel.count_of_not_counting _ _ notCounting]
  refine ⟨fun picked => ?_, fun not => ?_⟩ <;> dsimp only
  · rw [Channel.handleEdge_of_picked id now (c := { c with lastSample := level, arrived := true }) settings picked,
      if_neg (by simp [shape]), Channel.trigger_of_armed now (c := { c with lastSample := level, arrived := true })
        settings shape armed]
  · rw [Channel.handleEdge_of_not_picked id now (c := { c with lastSample := level, arrived := true }) settings not]

/-- The clock event of a RUNNING or PULSING channel in its tick arrival, with the link of the event it brings. -/
theorem Channel.count_spec (settings : c.settings = some st) (running : c.mode = .running ∨ c.mode = .pulsing)
    (edge : Option Edge) :
    ∃ (counted : Channel) (event : Option EventKind),
      ((¬ ∀ r, c.restart = some r → r.toNat < now.toNat) → counted = c ∧ event = none) ∧
      ((∀ r, c.restart = some r → r.toNat < now.toNat) → (c.clock st edge).2 = false →
        counted = (c.clock st edge).1 ∧ event = none) ∧
      ((∀ r, c.restart = some r → r.toNat < now.toNat) → (c.clock st edge).2 = true →
        (counted, event) = (c.clock st edge).1.advance st) ∧
      c.countedFrom counted st ∧
      c.count id now edge = (counted, counted.linksOf id event) := by
  have counting := Channel.counting_of_mode now running
  by_cases counts : ∀ r, c.restart = some r → r.toNat < now.toNat
  · have clocked := Channel.clock_countedFrom settings edge
    cases brings : (c.clock st edge).2 with
    | false =>
      exact ⟨_, none, fun no => absurd counts no, fun _ _ => ⟨rfl, rfl⟩, fun _ yes => by simp at yes, clocked,
        Channel.count_of_no_event id now settings (counting.mpr counts) brings⟩
    | true =>
      refine ⟨_, _, fun no => absurd counts no, fun _ no => by simp at no, fun _ _ => rfl, ?_,
        Channel.count_of_event id now settings (counting.mpr counts) brings⟩
      obtain ⟨-, tag, resumed, mode⟩ := clocked
      have unchanged : (c.clock st edge).1.settings = some st := by
        have : (c.clock st edge).1.settings = c.settings := by
          unfold Channel.clock
          (repeat' split) <;> rfl
        rw [this, settings]
      obtain ⟨kept, tag', resumed', mode'⟩ := Channel.advance_countedFrom unchanged
      exact ⟨kept, tag'.trans tag, resumed'.trans resumed, fun shape => (mode' shape).trans (mode shape)⟩
  · have still : c.counting now = false := by
      rw [← Bool.not_eq_true, counting]
      exact counts
    exact ⟨c, none, fun _ => ⟨rfl, rfl⟩, fun yes => absurd yes counts, fun yes => absurd yes counts,
      ⟨⟨st, settings, rfl⟩, rfl, rfl, fun _ => rfl⟩, Channel.count_of_not_counting id now still edge⟩

end

/-- Settles O22: the arrival by the channel's state, the clock event and the edge. -/
theorem tickArrivals : Obligations.TickArrivals := by
  intro s ch level free alive due sampled
  refine ⟨_, exec_tickArrival_eq level free alive due, ?_, fun idle => ?_, fun st settings armed shape => ?_,
    fun st settings running => ?_⟩
  · simp [State.chan]
  · rw [Channel.arrival_of_idle ch s.now level idle]
    simp [State.chan, Writer.offered, sampled]
  · obtain ⟨begun, not⟩ := Channel.arrival_of_armed ch s.now level settings armed shape
    intro picked
    by_cases yes : picked
    · rw [begun yes]
      simp [State.chan, Writer.offered, sampled, yes]
    · rw [not yes]
      simp [State.chan, Writer.offered, sampled, yes]
  · intro ticked counts picked
    obtain ⟨counted, event, still, quiet, brought, from_, count⟩ :=
      Channel.count_spec ch s.now (c := sampled) settings running (edgeOf (s.chan ch).lastSample level)
    have arrival : (s.chan ch).arrival ch s.now level =
        (let handled := counted.handleEdge ch s.now (edgeOf (s.chan ch).lastSample level)
        ({ handled.1 with resumed := false }, counted.linksOf ch event, handled.2)) := by
      rw [Channel.arrival_eq]
      dsimp only
      rw [count]
    have link := Channel.linkAt_eq ch from_
    obtain ⟨⟨u, hu, same⟩, tag, resumed, keepsMode⟩ := from_
    obtain ⟨edge, shape, retrigger, polarity⟩ : u.inputEdge = st.inputEdge ∧ u.shape = st.shape ∧
        u.retrigger = st.retrigger ∧ u.polarity = st.polarity := by
      rw [same]
      exact ⟨rfl, rfl, rfl, rfl⟩
    have picks : u.inputEdge.picks (s.chan ch).lastSample level ∧ counted.resumed = false ↔ picked := by
      rw [edge, resumed]
    rw [arrival]
    refine ⟨counted, event, still, quiet, brought, ?_, ?_, ?_, ?_, ?_, fun no => ?_, fun yes capture mode => ?_,
      fun yes oneShot => ?_⟩
    · rintro rfl
      exact List.append_nil _
    · rintro rfl none
      simp [Channel.linksOf, link, none]
    · rintro rfl some
      simp [Channel.linksOf, link, some, sampled]
    · rintro rfl none
      simp [Channel.linksOf, link, none]
    · rintro rfl some
      simp [Channel.linksOf, link, some, sampled]
    · rw [Channel.handleEdge_of_not_picked ch s.now hu (mt picks.mp no)]
      simp [State.chan, Writer.offered]
    · have running : counted.mode = .running := (keepsMode (by simp [capture])).trans mode
      have record : counted.handleEdge ch s.now (edgeOf (s.chan ch).lastSample level) =
          (counted, [.capture ch (if level = .high then .rise else .fall) counted.counter counted.tag counted.wrapCount
            s.now]) := by
        rw [Channel.handleEdge_of_picked ch s.now hu (picks.mpr yes), if_pos ⟨shape.trans capture, running⟩]
      rw [record]
      refine ⟨by simp [State.chan], rfl, fun keeps room => ?_⟩
      obtain ⟨queue, lost⟩ := Writer.offer_joins s.now (.capture ch (if level = .high then .rise else .fall)
        counted.counter counted.tag counted.wrapCount s.now) keeps room
      exact ⟨lost, queue⟩
    · rw [Channel.handleEdge_of_picked ch s.now hu (picks.mpr yes), if_neg (by simp [shape, oneShot])]
      refine ⟨rfl, fun armed => ?_, fun pulsing extend => ?_, fun pulsing ignore => ?_⟩
      · simp [State.chan, Channel.trigger_of_armed s.now hu (shape.trans oneShot) armed, polarity]
      · simp [State.chan, Channel.trigger_of_extend s.now hu (shape.trans oneShot) pulsing (retrigger.trans extend)]
      · simp [State.chan, Channel.trigger_of_ignore s.now hu (shape.trans oneShot) pulsing (retrigger.trans ignore)]

/-! ## The scan event (R33, R134) -/

/-- The reread requests of a scan event, with the period begun again. -/
def State.scanned (s : State) : State := State.lanesReread { s with tb := { s.tb with scanCount := 0 } }

theorem State.takeScan_of_due {s : State} (due : s.scanDue = true) : s.takeScan = s.scanned.writerScan := if_pos due

theorem State.writerScan_of_not_starved {s : State} (h : s.wr.state ≠ .starved) : s.writerScan = s := by
  simp [State.writerScan, State.writerReread, h]

theorem State.writerScan_of_not_draining {s : State} (h : s.eng.state ≠ .draining) : s.writerScan = s.writerReread := by
  simp [State.writerScan, h]

theorem State.writerScan_of_draining {s : State} (starved : s.wr.state = .starved) (draining : s.eng.state = .draining) :
    s.writerScan = { s.writerReread with wr := { s.writerReread.wr with
      starveCount := min 16 (s.wr.starveCount + 1) } } := by
  rw [← s.starveCount_writerReread]
  simp [State.writerScan, starved, draining, Config.drainScanLimit]

theorem State.scanned_takeScan (s : State) :
    s.scanned.writerScan = { s with tb := { s.tb with scanCount := 0 },
                                    loader := { s.loader with lanes := s.scanned.loader.lanes },
                                    wr := s.scanned.writerScan.wr } := by
  simp only [State.writerScan, State.writerReread]
  (repeat' split) <;> rfl

/-- Settles O23: a scan event asks each lane and the writer, and counts for a STARVED drain. -/
theorem scanEventRereads : Obligations.ScanEventRereads := by
  intro s free scans reached
  have due : s.scanDue = true := by simp [State.scanDue, s.scans_iff.mpr scans, reached]
  have same := s.scanned_takeScan
  have loader : s.scanned.writerScan.loader.lanes = s.scanned.loader.lanes := by rw [same]
  refine ⟨s.takeScan, exec_scanEvent s free, ?_⟩
  rw [State.takeScan_of_due due]
  refine ⟨by rw [same], fun i => ?_, fun notStarved => ?_, fun starved notDraining => ?_, fun starved draining below => ?_,
    fun starved draining reached => ?_, ?_⟩
  · have asked := State.laneAsked_lanesReread { s with tb := { s.tb with scanCount := 0 } } i
    have lane : s.scanned.writerScan.lane i = s.scanned.lane i := by simp only [State.lane, loader]
    rw [lane]
    exact asked
  · rw [State.writerScan_of_not_starved (s := s.scanned) notStarved]
    rfl
  · have notLast : s.scanned.lastRereadMade = false := by
      rw [← Bool.not_eq_true, State.lastRereadMade_iff]
      exact fun last => notDraining last.1
    rw [State.writerScan_of_not_draining (s := s.scanned) notDraining]
    exact State.writerAsked_writerReread (s := s.scanned) starved notLast
  · have notLast : s.scanned.lastRereadMade = false := by
      rw [← Bool.not_eq_true, State.lastRereadMade_iff]
      rintro ⟨-, last⟩
      have last : 16 ≤ s.wr.starveCount := last
      omega
    have asked := State.writerAsked_writerReread (s := s.scanned) starved notLast
    have count : s.scanned.writerReread.wr.starveCount = s.wr.starveCount := s.scanned.starveCount_writerReread
    rw [State.writerScan_of_draining (s := s.scanned) starved draining]
    refine ⟨min_eq_right below, ?_⟩
    simp only [← count]
    exact asked
  · have last : s.scanned.lastRereadMade = true := s.scanned.lastRereadMade_iff.mpr ⟨draining, reached⟩
    rw [State.writerScan_of_draining (s := s.scanned) starved draining, State.writerReread_of_not_asked (.inr last)]
    have count : min 16 (s.scanned.wr.starveCount + 1) = 16 := min_eq_left (Nat.le_succ_of_le reached)
    rw [count]
    rfl
  · rw [same]

end Sys2Proof.Machine
end

section
/-! PROOFS. Expiry, retirement and late cues (Chapter 1; R4 to R6, R16 to R22, R42, R43). -/

namespace Sys2Proof.Machine

/-! ## Retirement (R22, R42, R43) -/

theorem Lane.countRetired_frame (l : Lane) (ref : Word) :
    (l.countRetired ref).head = l.head ∧ (l.countRetired ref).cuesRetired = l.cuesRetired + 1 ∧
      (l.countRetired ref).trail.map (fun x => (x.address, x.fetched, x.finish)) =
        l.trail.map fun x => (x.address, x.fetched, x.finish) := by
  refine ⟨rfl, rfl, ?_⟩
  simp only [Lane.countRetired, List.map_map]
  refine List.map_congr_left fun x _ => ?_
  simp only [Function.comp_apply]
  split <;> rfl

/-- Without a held head whose turn has come a retirement is one count. -/
theorem Lane.retire_of_not_released {l : Lane} (ref : Word) (h : ∀ x o, l.head = some x → x.body = .held o →
    l.cuesRetired + 1 ≠ x.seq) : l.retire ref = l.countRetired ref := by
  have head : (l.countRetired ref).head = l.head := rfl
  unfold Lane.retire Lane.releaseHeld
  rw [head]
  split
  · next x hx =>
    split
    · next o body => exact if_neg (h x o hx body)
    · rfl
  · rfl

/-- A held head whose earlier cues have all retired retires as well (R43). -/
theorem Lane.retire_of_released {l : Lane} {x : Head} {o : HeldOutcome} (ref : Word) (head : l.head = some x)
    (body : x.body = .held o) (turn : l.cuesRetired + 1 = x.seq) :
    l.retire ref = { (l.countRetired ref).countRetired x.trailRef with head := none } := by
  have head' : (l.countRetired ref).head = some x := head
  have turn' : (l.countRetired ref).cuesRetired = x.seq := turn
  simp only [Lane.retire, Lane.releaseHeld, head', body, turn', if_true]

theorem Lane.retire_spec (l : Lane) (ref : Word) :
    l.retire ref = { l with cuesRetired := (l.retire ref).cuesRetired, trail := (l.retire ref).trail,
                            head := (l.retire ref).head } ∧
      (l.retire ref).trail.map (fun x => (x.address, x.fetched, x.finish)) =
        l.trail.map fun x => (x.address, x.fetched, x.finish) := by
  by_cases released : ∃ x o, l.head = some x ∧ x.body = .held o ∧ l.cuesRetired + 1 = x.seq
  · obtain ⟨x, o, head, body, turn⟩ := released
    rw [Lane.retire_of_released ref head body turn]
    exact ⟨rfl, ((l.countRetired ref).countRetired_frame x.trailRef).2.2.trans (l.countRetired_frame ref).2.2⟩
  · rw [Lane.retire_of_not_released ref fun x o head body turn => released ⟨x, o, head, body, turn⟩]
    exact ⟨rfl, (l.countRetired_frame ref).2.2⟩

/-! ## Expiry (R17) -/

/-- What the handling of an expired entry leaves of the Calendar: an END cue that is dispatched empties it, but not while an
engine reset is pending. -/
theorem State.handleEntry_cal_eq (s : State) (e : Entry) :
    (s.handleEntry e).cal = if e.cue.action = .engine .endCue ∧ s.eng.resetPending = false ∧
      ¬ (e.cue.due.toNat < s.now.toNat ∧ e.cue.late = .skip) then [] else s.cal := by
  by_cases noReset : s.eng.resetPending = false
  · obtain ⟨ends, stays⟩ := State.handleEntry_spec s e noReset
    split
    · next h => exact (ends ⟨h.1, h.2.2⟩).1
    · next h => exact (stays fun yes => h ⟨yes.1, noReset, yes.2⟩).1
  · have pending : s.eng.resetPending = true := by simpa using noReset
    rw [if_neg fun h => noReset h.2.1]
    have dispatched : ∀ l, (s.dispatch e l).cal = s.cal := fun l => by
      simp only [State.dispatch]
      split
      case h_5 => simp [State.dispatchEnd, pending]
      all_goals simp
    simp only [State.handleEntry]
    split
    · simp
    · exact dispatched _

/-- Settles O24: EXPIRY is the dispatch of the earliest entry's row, and a retirement counts once, or twice with a held head. -/
theorem expiryAndRetirement : Obligations.ExpiryAndRetirement := by
  refine ⟨⟨fun s e rest free running cal due => ?_, fun s free idle => ?_⟩, fun l ref =>
    ⟨(l.retire_spec ref).1, (l.retire_spec ref).2, fun h => ?_, fun x o head body turn => ?_⟩⟩
  · have expired : s.expiredEntry = some e := by simp [State.expiredEntry, cal, running, due]
    rw [exec_rowOf free expired, exec_expiry s free]
    refine ⟨rfl, _, rfl, ?_⟩
    rw [State.takeExpiry_of_due running cal due, State.handleEntry_cal_eq]
    rfl
  · have none : s.expiredEntry = none := by
      rcases idle with idle | idle
      · exact State.expiredEntry_of_not_running idle
      · exact State.expiredEntry_of_none_due idle
    rw [exec_expiry s free, State.takeExpiry_of_none none]
  · have once := Lane.retire_of_not_released (l := l) ref fun x o head body turn => by
      rcases h with h | ⟨y, c, hy, accepted⟩ | ⟨y, hy, notTurn⟩
      · rw [h] at head
        cases head
      · rw [hy] at head
        cases head
        rw [accepted] at body
        cases body
      · rw [hy] at head
        cases head
        exact notTurn turn
    rw [once]
    exact ⟨rfl, rfl, rfl⟩
  · rw [Lane.retire_of_released ref head body turn]
    refine ⟨rfl, ?_⟩
    show l.cuesRetired + 1 + 1 = l.cuesRetired + 2
    rw [BitVec.add_assoc]
    rfl

/-! ## Late cues (R5, R6, R16, R19, R20) -/

theorem satHalf_eq (n : Nat) : satHalf n = BitVec.ofNat 16 (min 65535 n) := by
  unfold satHalf
  split
  · next below => rw [min_eq_right (by omega)]
  · next above => rw [min_eq_left (by omega)]; rfl

theorem State.lateness_of_late {s : State} {e : Entry} (late : e.cue.due.toNat < s.now.toNat) :
    s.lateness e = some (s.latenessOf e.cue.due) := by
  rw [State.lateness, if_pos late, satHalf_eq]
  rfl

/-- The retirement of a late cue with an outcome that is reported always: its report, LATE, and REFUSE with a refusal. -/
theorem State.retireEntry_late_eq (s : State) (e : Entry) {o : CueOutcome} (reported : plainOutcome o = false) :
    s.retireEntry e o (some (s.latenessOf e.cue.due)) =
      { s.retire e.lane e.trailRef with
        wr := s.wr.offer s.now (s.lateReport e o)
        win := { s.win with alert :=
          if refusingOutcome o then s.win.alert ||| 0x04 ||| 0x08 else s.win.alert ||| 0x04 } } := by
  simp only [State.retireEntry, reported, Bool.not_false, Bool.true_or, if_true, Option.isSome_some, State.retireAlerts]
  split <;> rfl

theorem State.handleEntry_of_skipped {s : State} {e : Entry} (late : e.cue.due.toNat < s.now.toNat)
    (skip : e.cue.late = .skip) :
    s.handleEntry e = s.retireEntry e .skippedLate (some (s.latenessOf e.cue.due)) := by
  simp only [State.handleEntry, State.lateness_of_late late, skip]

theorem State.handleEntry_of_runLate {s : State} {e : Entry} (late : e.cue.due.toNat < s.now.toNat)
    (run : e.cue.late = .runLate) : s.handleEntry e = s.dispatch e (some (s.latenessOf e.cue.due)) := by
  simp only [State.handleEntry, State.lateness_of_late late, run]

/-- An outcome that Table 1-4 turns into DONE_LATE, as far as a target gives it. -/
def plainLate (o : CueOutcome) : Prop := o = .done ∨ o = .doneReplacing ∨ o = .already ∨ o = .ignored

/-- What a target gives: a plain outcome, or one that raises REFUSE. -/
def givenByTarget (o : CueOutcome) : Prop := plainLate o ∨ refusingOutcome o = true

theorem Channel.take_outcome (c : Channel) (id : ChanId) (now : Tick) (tag : Half) (v : ChanVerb) :
    givenByTarget (c.take id now tag v).2.1 := by
  unfold givenByTarget plainLate
  cases v <;> simp only [Channel.take, Channel.set, Channel.start, Channel.stop, Channel.pause, Channel.resume,
    Channel.stage, Channel.fire] <;> (repeat' split) <;> simp [refusingOutcome]

theorem Converter.take_outcome (c : Converter) (source : Source) (tag : Half) (now : Tick) (d : Nat) (v : ConvVerb) :
    givenByTarget (c.take source tag now d v).2.1 := by
  unfold givenByTarget plainLate
  cases v <;> simp only [Converter.take, Converter.powerOn, Converter.powerOff, Converter.reference, Converter.convert] <;>
    (repeat' split) <;> simp [refusingOutcome]

/-- What the late dispatch of a cue with outcome `o` leaves, where the verb left the writer `w` (R19). -/
def State.retiredLate (s t : State) (e : Entry) (rest : List Entry) (o : CueOutcome) (w : Writer) : Prop :=
  t.cal = rest ∧ t.lane e.lane = (s.lane e.lane).retire e.trailRef ∧
  (plainLate o → t.wr = w.offer s.now (s.lateReport e .doneLate) ∧
    t.win = { s.win with alert := s.win.alert ||| 0x04 }) ∧
  (¬ plainLate o → t.wr = w.offer s.now (s.lateReport e o) ∧
    t.win = { s.win with alert := s.win.alert ||| 0x04 ||| 0x08 }) ∧
  t.eng = s.eng ∧ t.tb = s.tb ∧ t.params = s.params ∧ t.links = s.links ∧ t.port = s.port ∧ t.pins = s.pins

/-- The retirement that ends a late dispatch, from a state that the verb changed in channels, Converter and writer alone. -/
theorem State.retireEntry_retiredLate {s : State} {e : Entry} {rest : List Entry} {o : CueOutcome} {chans : Vector Channel 16}
    {conv : Converter} {w : Writer} (given : givenByTarget o) :
    s.retiredLate (State.retireEntry { s with cal := rest, chans := chans, conv := conv, wr := w } e
      (dispatchOutcome (some (s.latenessOf e.cue.due)) o) (some (s.latenessOf e.cue.due))) e rest o w := by
  have retired : ∀ o', plainOutcome o' = false → State.retireEntry { s with cal := rest, chans := chans, conv := conv, wr := w }
      e o' (some (s.latenessOf e.cue.due)) = _ := fun o' reported =>
    State.retireEntry_late_eq { s with cal := rest, chans := chans, conv := conv, wr := w } e reported
  have lane : ∀ u : State, (u.retire e.lane e.trailRef).lane e.lane = (u.lane e.lane).retire e.trailRef := fun u =>
    State.lane_setLane_same _ _ _
  rcases given with plain | refused
  · have done : dispatchOutcome (some (s.latenessOf e.cue.due)) o = .doneLate := by
      rcases plain with rfl | rfl | rfl | rfl <;> rfl
    rw [done, retired .doneLate rfl]
    exact ⟨rfl, lane _, fun _ => ⟨rfl, rfl⟩, fun no => absurd plain no, rfl, rfl, rfl, rfl, rfl, rfl⟩
  · have same : dispatchOutcome (some (s.latenessOf e.cue.due)) o = o := by cases o <;> simp [refusingOutcome] at refused <;> rfl
    have reported : plainOutcome o = false := by cases o <;> simp [refusingOutcome] at refused <;> rfl
    have notPlain : ¬ plainLate o := by rintro (rfl | rfl | rfl | rfl) <;> simp [refusingOutcome] at refused
    rw [same, retired o reported]
    refine ⟨rfl, lane _, fun yes => absurd yes notPlain, fun _ => ⟨rfl, ?_⟩, rfl, rfl, rfl, rfl, rfl, rfl⟩
    simp [refused]

/-- Retirements change neither the accepted heads nor the segments that a session stop reports. -/
theorem State.drainRecords_retire {s t : State} (i : LaneId) (ref : Word)
    (loader : t.loader = (s.retire i ref).loader) (conv : t.conv = s.conv) (tb : t.tb = s.tb) (cal : List Entry) :
    t.drainRecords cal = s.drainRecords cal := by
  have now : t.now = s.now := congrArg Timebase.count tb
  have lane : ∀ j, t.lane j = (s.retire i ref).lane j := fun j => by simp only [State.lane, loader]
  have heads : ∀ j, (t.lane j).acceptedHead = (s.lane j).acceptedHead ∧ (t.lane j).current = (s.lane j).current := by
    intro j
    rw [lane]
    by_cases same : i = j
    · subst same
      rw [State.retire, State.lane_setLane_same]
      exact ⟨Lane.retire_acceptedHead _ _, Lane.retire_current _ _⟩
    · rw [State.retire, State.lane_setLane_ne _ _ same]
      exact ⟨rfl, rfl⟩
  have counts : ∀ j, t.cancelledOf cal j = s.cancelledOf cal j := fun j => by
    simp only [State.cancelledOf, (heads j).1]
  simp only [State.drainRecords, State.cancelRecords, counts, (heads _).2, conv, now]

section
variable {s : State} {e : Entry} {rest : List Entry} (free : s.free) (running : s.eng.state = .running)
  (cal : s.cal = e :: rest) (late : e.cue.due.toNat < s.now.toNat)
include free running cal late

theorem exec_expiry_of_skipped (skip : e.cue.late = .skip) : exec .expiry s =
    .next (State.retireEntry { s with cal := rest } e .skippedLate (some (s.latenessOf e.cue.due))) := by
  rw [exec_expiry s free, State.takeExpiry_of_due running cal late.le,
    State.handleEntry_of_skipped (s := { s with cal := rest }) late skip]
  rfl

theorem exec_expiry_of_runLate (run : e.cue.late = .runLate) : exec .expiry s =
    .next (State.dispatch { s with cal := rest } e (some (s.latenessOf e.cue.due))) := by
  rw [exec_expiry s free, State.takeExpiry_of_due running cal late.le,
    State.handleEntry_of_runLate (s := { s with cal := rest }) late run]
  rfl

end

theorem State.dispatch_channel (s : State) {e : Entry} (l : Option Half) {ch : ChanId} {v : ChanVerb}
    (action : e.cue.action = .channel ch v) :
    s.dispatch e l = State.retireEntry
      { s with chans := s.chans.set ch.val ((s.chan ch).take ch s.now e.cue.tag v).1 ch.isLt
               wr := s.wr.offered s.now ((s.chan ch).take ch s.now e.cue.tag v).2.2 } e
      (dispatchOutcome l ((s.chan ch).take ch s.now e.cue.tag v).2.1) l := by
  simp only [State.dispatch, action, State.dispatchChannel, State.offerAll_eq]
  rfl

theorem State.dispatch_converter (s : State) {e : Entry} (l : Option Half) {v : ConvVerb}
    (action : e.cue.action = .converter v) :
    s.dispatch e l = State.retireEntry
      { s with conv := (s.conv.take (.cue e.lane e.seq) e.cue.tag s.now s.tb.divider v).1
               wr := s.wr.offered s.now (s.conv.take (.cue e.lane e.seq) e.cue.tag s.now s.tb.divider v).2.2 } e
      (dispatchOutcome l (s.conv.take (.cue e.lane e.seq) e.cue.tag s.now s.tb.divider v).2.1) l := by
  simp only [State.dispatch, action, State.dispatchConverter, State.offerAll_eq]
  rfl

theorem State.dispatch_note (s : State) {e : Entry} (l : Option Half) {p : BitVec 128}
    (action : e.cue.action = .engine (.note p)) :
    s.dispatch e l = State.retireEntry
      { s with wr := s.wr.offer s.now (.note e.cue.tag (if e.cue.payloadPresent then some p else none) s.now) } e
      (dispatchOutcome l .done) l := by
  simp only [State.dispatch, action]
  rfl

theorem State.dispatch_closePage (s : State) {e : Entry} (l : Option Half) (action : e.cue.action = .engine .closePage) :
    s.dispatch e l = s.dispatchClosePage e l := by
  simp only [State.dispatch, action]

theorem State.dispatch_endCue (s : State) {e : Entry} (l : Option Half) (action : e.cue.action = .engine .endCue) :
    s.dispatch e l = s.dispatchEnd e l := by
  simp only [State.dispatch, action]

/-! ## A late head (R15, R16) -/

theorem State.offeredCount_le (s : State) : s.offeredCount ≤ 4 :=
  (List.length_filter_le _ _).trans (List.length_finRange (n := 4)).le

/-- A head late in RUNNING that no entry comes before is handled at once. -/
theorem exec_laneHeadOffer_of_late {s : State} {i : LaneId} {h : Head} {c : Cue} (free : s.free)
    (running : s.eng.state = .running) (head : (s.lane i).head = some h) (body : h.body = .accepted c)
    (active : (s.lane i).state = .active) (room : s.cal.length + 4 ≤ 48) (late : c.due.toNat < s.now.toNat)
    (first : ∀ x ∈ s.cal, Entry.before { cue := c, lane := i, seq := h.seq, trailRef := h.trailRef, lateMark := false } x = true) :
    exec (.laneHeadOffer i) s = .next (State.handleEntry (s.setLane i { s.lane i with head := none })
      { cue := c, lane := i, seq := h.seq, trailRef := h.trailRef, lateMark := false }) := by
  have entry : s.entryOf i h c = { cue := c, lane := i, seq := h.seq, trailRef := h.trailRef, lateMark := false } := by
    simp [State.entryOf, running]
  have offered : s.offeredHead i = some (h, c) := by
    have accepted : (s.lane i).acceptedHead = some (h, c) := by simp [Lane.acceptedHead, head, body]
    simp only [State.offeredHead, accepted]
    rw [if_pos]
    simp only [State.takesCues, running, Lane.offers, active, Bool.and_eq_true, decide_eq_true_eq]
    exact ⟨⟨by simp, trivial⟩, by omega⟩
  have taken := State.headTaken_eq_some offered (.inl (by have := s.offeredCount_le; omega))
  have standsFirst : State.standsFirst (s.setLane i { s.lane i with head := none }) (s.entryOf i h c) = true := by
    rw [entry]
    exact List.all_eq_true.mpr first
  rw [exec_laneHeadOffer i s free, State.offerHead, taken]
  dsimp only
  rw [State.takeHead, if_pos ⟨running, late, standsFirst⟩, entry]

/-- The drain that a late END cue begins, from a state in which its entry has been retired (R12, R19). -/
theorem State.beginDrain_of_retired {s u : State} {c : EndCause} {cal : List Entry} (i : LaneId) (ref : Word)
    (loader : u.loader = (s.retire i ref).loader) (conv : u.conv = s.conv) (tb : u.tb = s.tb) (rest : u.cal = cal) :
    (u.beginDrain c).cal = [] ∧ (u.beginDrain c).eng.state = .draining ∧ (u.beginDrain c).eng.endCause = c ∧
      (u.beginDrain c).wr = u.wr.drained s.now (s.drainRecords cal) ∧ (u.beginDrain c).win = u.win := by
  obtain ⟨empty, draining, cause, -, -⟩ := u.beginDrain_spec c
  have now : u.now = s.now := congrArg Timebase.count tb
  refine ⟨empty, draining, cause, ?_, by simp⟩
  rw [State.beginDrain_wr, State.drainRecords_retire i ref loader conv tb, rest, now]

/-- Settles O25: a late entry skipped, one dispatched all the same, and a late head. -/
theorem lateCues : Obligations.LateCues := by
  refine ⟨fun s e rest free running cal late skip => ?_, fun s e rest free running cal late run => ?_,
    fun s i h c free running head body active room late first => ?_⟩
  · refine ⟨_, exec_expiry_of_skipped free running cal late skip, ?_⟩
    have retired := State.retireEntry_late_eq { s with cal := rest } e (o := .skippedLate) rfl
    have retired : State.retireEntry { s with cal := rest } e .skippedLate (some (s.latenessOf e.cue.due)) = _ := retired
    rw [retired]
    exact ⟨rfl, rfl, rfl, rfl, rfl, rfl, State.lane_setLane_same _ _ _, rfl, rfl, rfl, rfl, rfl⟩
  · intro plain retiredLate
    have dispatched := exec_expiry_of_runLate free running cal late run
    refine ⟨fun ch v action => ?_, fun v action => ?_, fun p action => ?_, fun action room keeps => ?_, fun action full => ?_,
      fun action noReset => ?_⟩
    · refine ⟨_, dispatched, ?_⟩
      rw [State.dispatch_channel _ _ action]
      refine ⟨State.retireEntry_retiredLate (Channel.take_outcome _ _ _ _ _), ?_⟩
      simp [onlyChannel, State.chan]
      rfl
    · refine ⟨_, dispatched, ?_⟩
      rw [State.dispatch_converter _ _ action]
      refine ⟨State.retireEntry_retiredLate (Converter.take_outcome _ _ _ _ _ _), ?_⟩
      simp
      rfl
    · refine ⟨_, dispatched, ?_⟩
      rw [State.dispatch_note _ _ action]
      exact ⟨by simp, by simp, State.retireEntry_retiredLate (.inl (.inl rfl))⟩
    · refine ⟨_, dispatched, ?_⟩
      have place : s.wr.hasPlace = true := decide_eq_true room
      rw [State.dispatch_closePage _ _ action, State.dispatchClosePage, if_pos place, if_pos keeps]
      exact ⟨rfl, State.lane_setLane_same _ _ _, rfl, rfl, rfl, rfl, rfl⟩
    · refine ⟨_, dispatched, ?_⟩
      have noPlace : s.wr.hasPlace = false := by simp [Writer.hasPlace, Config.resultPlaces, full]
      rw [State.dispatch_closePage _ _ action, State.dispatchClosePage, if_neg (by simp [noPlace])]
      exact ⟨by simp, by simp, State.retireEntry_retiredLate (o := .refusedQueueFull) (.inr rfl)⟩
    · refine ⟨_, dispatched, ?_⟩
      have retired := State.retireEntry_late_eq { s with cal := rest } e (o := .doneLate) rfl
      have retired : State.retireEntry { s with cal := rest } e (dispatchOutcome (some (s.latenessOf e.cue.due)) .done)
        (some (s.latenessOf e.cue.due)) = _ := retired
      rw [State.dispatch_endCue _ _ action, State.dispatchEnd, retired, if_neg (by simpa using noReset)]
      exact State.beginDrain_of_retired e.lane e.trailRef rfl rfl rfl rfl
  · intro report
    have run := exec_laneHeadOffer_of_late free running head body active room late first
    have lane : ∀ u : State, (u.lane i).head = none → ((u.retire i h.trailRef).lane i).head = none := fun u empty => by
      rw [State.retire, State.lane_setLane_same]
      exact (Lane.retire_of_not_held (.inl empty) _).1.trans empty
    have empty : ((s.setLane i { s.lane i with head := none }).lane i).head = none := by rw [State.lane_setLane_same]
    generalize hu : s.setLane i { s.lane i with head := none } = u at run empty
    generalize he : ({ cue := c, lane := i, seq := h.seq, trailRef := h.trailRef, lateMark := false } : Entry) = e at run
    have late : e.cue.due.toNat < u.now.toNat := by
      rw [← he, ← hu]
      exact late
    refine ⟨fun skip => ⟨_, run, ?_⟩, fun p runLate action => ⟨_, run, ?_⟩⟩
    · rw [State.handleEntry_of_skipped late (by rw [← he]; exact skip), State.retireEntry_late_eq _ _ rfl]
      subst hu he
      exact ⟨rfl, rfl, rfl, rfl, rfl, rfl, lane _ empty⟩
    · rw [State.handleEntry_of_runLate late (by rw [← he]; exact runLate),
        State.dispatch_note _ _ (by rw [← he]; exact action)]
      have retired := State.retireEntry_late_eq { u with
        wr := u.wr.offer u.now (.note e.cue.tag (if e.cue.payloadPresent then some p else none) u.now) } e
        (o := .doneLate) rfl
      refine retired ▸ ?_
      subst hu he
      exact ⟨rfl, rfl, rfl, rfl, rfl, rfl⟩

end Sys2Proof.Machine
end

section
/-! PROOFS. Settings records and the channel cues (sections 3.4, 3.5, 4.4.1; R53, R62 to R69, R91). -/

namespace Sys2Proof.Machine

/-! ## The codes of a settings record (Table 9-12) -/

def Shape.code : Shape → Nat
  | .matching => 0
  | .wave => 1
  | .oneShot => 2
  | .capture => 3

theorem shapeOf_eq_some {b : Byte} {x : Shape} : shapeOf b = some x ↔ b.toNat = x.code := by
  unfold shapeOf
  split <;> cases x <;> simp_all [Shape.code]

def Clock.code : Clock → Nat
  | .div k => k.val
  | .edgeRise => 8
  | .edgeFall => 9
  | .edgeBoth => 10

/-- The clock code of a divider exponent. -/
theorem clockOf_of_lt {b : Byte} (h : b.toNat < 8) : clockOf b = some (.div ⟨b.toNat, h⟩) := by
  unfold clockOf
  generalize b.toNat = n at h ⊢
  interval_cases n <;> rfl

theorem clockOf_eq_some {b : Byte} {x : Clock} : clockOf b = some x ↔ b.toNat = x.code := by
  by_cases div : b.toNat < 8
  · rw [clockOf_of_lt div]
    cases x with
    | div k => simp [Clock.code, Fin.ext_iff]
    | edgeRise => simp [Clock.code]; omega
    | edgeFall => simp [Clock.code]; omega
    | edgeBoth => simp [Clock.code]; omega
  · unfold clockOf
    split <;> cases x <;> simp_all [Clock.code] <;> omega

def WrapSource.code : WrapSource → Nat
  | .period => 0
  | .action => 1

theorem wrapSourceOf_eq_some {b : Byte} {x : WrapSource} : wrapSourceOf b = some x ↔ b.toNat = x.code := by
  unfold wrapSourceOf
  split <;> cases x <;> simp_all [WrapSource.code]

def InputEdge.code : InputEdge → Nat
  | .none => 0
  | .rise => 1
  | .fall => 2
  | .both => 3

theorem inputEdgeOf_eq_some {b : Byte} {x : InputEdge} : inputEdgeOf b = some x ↔ b.toNat = x.code := by
  unfold inputEdgeOf
  split <;> cases x <;> simp_all [InputEdge.code]

def MatchAction.code : MatchAction → Nat
  | .none => 0
  | .low => 1
  | .high => 2
  | .toggle => 3

theorem matchActionOf_eq_some {b : Byte} {x : MatchAction} : matchActionOf b = some x ↔ b.toNat = x.code := by
  unfold matchActionOf
  split <;> cases x <;> simp_all [MatchAction.code]

def levelNumber : Level → Nat
  | .low => 0
  | .high => 1

theorem levelOf_eq_some {b : Byte} {x : Level} : levelOf b = some x ↔ b.toNat = levelNumber x := by
  unfold levelOf
  split <;> cases x <;> simp_all [levelNumber]

def Polarity.code : Polarity → Nat
  | .activeHigh => 0
  | .activeLow => 1

theorem polarityOf_eq_some {b : Byte} {x : Polarity} : polarityOf b = some x ↔ b.toNat = x.code := by
  unfold polarityOf
  split <;> cases x <;> simp_all [Polarity.code]

def Retrigger.code : Retrigger → Nat
  | .ignore => 0
  | .extend => 1

theorem retriggerOf_eq_some {b : Byte} {x : Retrigger} : retriggerOf b = some x ↔ b.toNat = x.code := by
  unfold retriggerOf
  split <;> cases x <;> simp_all [Retrigger.code]

theorem rearmOf_eq_some {b : Byte} {x : Bool} : rearmOf b = some x ↔ b.toNat = if x then 1 else 0 := by
  unfold rearmOf
  split <;> cases x <;> simp_all

/-- The kind and number bytes that spell a link. -/
def Link.spelt (kind number : Byte) : Link → Prop
  | .none => kind.toNat = 0 ∧ number.toNat = 0
  | .convert k => kind.toNat = 1 ∧ number.toNat = k.val
  | .fire n => kind.toNat = 2 ∧ number.toNat = n.val

theorem linkOf_eq_some {kind number : Byte} {x : Link} : linkOf kind number = some x ↔ x.spelt kind number := by
  have zero : number = 0 ↔ number.toNat = 0 := by
    rw [← BitVec.toNat_inj]
    rfl
  unfold linkOf
  split
  · next k =>
    simp only [zero]
    split <;> cases x <;> simp [Link.spelt, *]
  · next k =>
    split
    · cases x <;> simp [Link.spelt, k, Fin.ext_iff]
    · cases x <;> simp [Link.spelt, k]
      omega
  · next k =>
    split
    · cases x <;> simp [Link.spelt, k, Fin.ext_iff]
    · cases x <;> simp [Link.spelt, k]
      omega
  · cases x <;> simp_all [Link.spelt]

/-- The settings record read field by field. -/
theorem readSettings_eq_some {r : BitVec 160} {st : Settings} : readSettings r = some st ↔
    (byteAt r 0x00).toNat = st.shape.code ∧ (byteAt r 0x01).toNat = st.clock.code ∧
    st.period = halfAt r 0x02 ∧ st.action = halfAt r 0x04 ∧ (byteAt r 0x06).toNat = st.wrapSource.code ∧
    (byteAt r 0x07).toNat = st.inputEdge.code ∧ (byteAt r 0x08).toNat = st.matchAction.code ∧
    (byteAt r 0x09).toNat = levelNumber st.initialLevel ∧ (byteAt r 0x0A).toNat = st.polarity.code ∧
    (byteAt r 0x0B).toNat = levelNumber st.restLevel ∧ (byteAt r 0x0C).toNat = st.retrigger.code ∧
    (byteAt r 0x0D).toNat = (if st.rearm then 1 else 0) ∧
    st.linkAction.spelt (byteAt r 0x0E) (byteAt r 0x0F) ∧ st.linkWrap.spelt (byteAt r 0x10) (byteAt r 0x11) := by
  simp only [← shapeOf_eq_some, ← clockOf_eq_some, ← wrapSourceOf_eq_some, ← inputEdgeOf_eq_some,
    ← matchActionOf_eq_some, ← levelOf_eq_some, ← polarityOf_eq_some, ← retriggerOf_eq_some, ← rearmOf_eq_some,
    ← linkOf_eq_some]
  simp only [readSettings, bind, Option.bind_eq_some_iff, pure, Option.some.injEq]
  constructor
  · rintro ⟨_, h0, _, h1, _, h6, _, h7, _, h8, _, h9, _, hA, _, hB, _, hC, _, hD, _, hE, _, hF, rfl⟩
    exact ⟨h0, h1, rfl, rfl, h6, h7, h8, h9, hA, hB, hC, hD, hE, hF⟩
  · rintro ⟨h0, h1, period, action, h6, h7, h8, h9, hA, hB, hC, hD, hE, hF⟩
    refine ⟨_, h0, _, h1, _, h6, _, h7, _, h8, _, h9, _, hA, _, hB, _, hC, _, hD, _, hE, _, hF, ?_⟩
    cases st
    simp only at period action
    rw [period, action]

/-! ### Which bytes are listed -/

theorem Shape.exists_code {n : Nat} : (∃ x : Shape, n = x.code) ↔ n ≤ 3 := by
  constructor
  · rintro ⟨x, rfl⟩
    cases x <;> decide
  · intro h
    interval_cases n
    exacts [⟨.matching, rfl⟩, ⟨.wave, rfl⟩, ⟨.oneShot, rfl⟩, ⟨.capture, rfl⟩]

theorem Clock.exists_code {n : Nat} : (∃ x : Clock, n = x.code) ↔ n ≤ 10 := by
  constructor
  · rintro ⟨x, rfl⟩
    cases x with
    | div k => simp only [Clock.code]; omega
    | edgeRise => decide
    | edgeFall => decide
    | edgeBoth => decide
  · intro h
    by_cases div : n < 8
    · exact ⟨.div ⟨n, div⟩, rfl⟩
    · obtain rfl | rfl | rfl : n = 8 ∨ n = 9 ∨ n = 10 := by omega
      exacts [⟨.edgeRise, rfl⟩, ⟨.edgeFall, rfl⟩, ⟨.edgeBoth, rfl⟩]

theorem WrapSource.exists_code {n : Nat} : (∃ x : WrapSource, n = x.code) ↔ n ≤ 1 := by
  constructor
  · rintro ⟨x, rfl⟩
    cases x <;> decide
  · intro h
    interval_cases n
    exacts [⟨.period, rfl⟩, ⟨.action, rfl⟩]

theorem InputEdge.exists_code {n : Nat} : (∃ x : InputEdge, n = x.code) ↔ n ≤ 3 := by
  constructor
  · rintro ⟨x, rfl⟩
    cases x <;> decide
  · intro h
    interval_cases n
    exacts [⟨.none, rfl⟩, ⟨.rise, rfl⟩, ⟨.fall, rfl⟩, ⟨.both, rfl⟩]

theorem MatchAction.exists_code {n : Nat} : (∃ x : MatchAction, n = x.code) ↔ n ≤ 3 := by
  constructor
  · rintro ⟨x, rfl⟩
    cases x <;> decide
  · intro h
    interval_cases n
    exacts [⟨.none, rfl⟩, ⟨.low, rfl⟩, ⟨.high, rfl⟩, ⟨.toggle, rfl⟩]

theorem exists_levelNumber {n : Nat} : (∃ x : Level, n = levelNumber x) ↔ n ≤ 1 := by
  constructor
  · rintro ⟨x, rfl⟩
    cases x <;> decide
  · intro h
    interval_cases n
    exacts [⟨.low, rfl⟩, ⟨.high, rfl⟩]

theorem Polarity.exists_code {n : Nat} : (∃ x : Polarity, n = x.code) ↔ n ≤ 1 := by
  constructor
  · rintro ⟨x, rfl⟩
    cases x <;> decide
  · intro h
    interval_cases n
    exacts [⟨.activeHigh, rfl⟩, ⟨.activeLow, rfl⟩]

theorem Retrigger.exists_code {n : Nat} : (∃ x : Retrigger, n = x.code) ↔ n ≤ 1 := by
  constructor
  · rintro ⟨x, rfl⟩
    cases x <;> decide
  · intro h
    interval_cases n
    exacts [⟨.ignore, rfl⟩, ⟨.extend, rfl⟩]

theorem exists_rearm_code {n : Nat} : (∃ x : Bool, n = if x then 1 else 0) ↔ n ≤ 1 := by
  constructor
  · rintro ⟨x, rfl⟩
    cases x <;> decide
  · intro h
    interval_cases n
    exacts [⟨false, rfl⟩, ⟨true, rfl⟩]

theorem Link.exists_spelt {kind number : Byte} : (∃ x : Link, x.spelt kind number) ↔
    ((kind.toNat = 0 ∧ number.toNat = 0) ∨ (kind.toNat = 1 ∧ number.toNat < 10) ∨
      (kind.toNat = 2 ∧ number.toNat < 16)) := by
  constructor
  · rintro ⟨x, h⟩
    cases x with
    | none => exact .inl h
    | convert k => exact .inr (.inl ⟨h.1, h.2 ▸ k.isLt⟩)
    | fire n => exact .inr (.inr ⟨h.1, h.2 ▸ n.isLt⟩)
  · rintro (h | ⟨kind, number⟩ | ⟨kind, number⟩)
    · exact ⟨.none, h⟩
    · exact ⟨.convert ⟨_, number⟩, kind, rfl⟩
    · exact ⟨.fire ⟨_, number⟩, kind, rfl⟩

/-- A settings record can be read just when every field holds a listed value. -/
theorem exists_readSettings (r : BitVec 160) : (∃ st, readSettings r = some st) ↔
    ((∃ x : Shape, (byteAt r 0x00).toNat = x.code) ∧ (∃ x : Clock, (byteAt r 0x01).toNat = x.code) ∧
    (∃ x : WrapSource, (byteAt r 0x06).toNat = x.code) ∧ (∃ x : InputEdge, (byteAt r 0x07).toNat = x.code) ∧
    (∃ x : MatchAction, (byteAt r 0x08).toNat = x.code) ∧ (∃ x : Level, (byteAt r 0x09).toNat = levelNumber x) ∧
    (∃ x : Polarity, (byteAt r 0x0A).toNat = x.code) ∧ (∃ x : Level, (byteAt r 0x0B).toNat = levelNumber x) ∧
    (∃ x : Retrigger, (byteAt r 0x0C).toNat = x.code) ∧ (∃ x : Bool, (byteAt r 0x0D).toNat = if x then 1 else 0) ∧
    (∃ x : Link, x.spelt (byteAt r 0x0E) (byteAt r 0x0F)) ∧ (∃ x : Link, x.spelt (byteAt r 0x10) (byteAt r 0x11))) := by
  constructor
  · rintro ⟨st, h⟩
    obtain ⟨h0, h1, -, -, h6, h7, h8, h9, hA, hB, hC, hD, hE, hF⟩ := readSettings_eq_some.1 h
    exact ⟨⟨_, h0⟩, ⟨_, h1⟩, ⟨_, h6⟩, ⟨_, h7⟩, ⟨_, h8⟩, ⟨_, h9⟩, ⟨_, hA⟩, ⟨_, hB⟩, ⟨_, hC⟩, ⟨_, hD⟩, ⟨_, hE⟩, ⟨_, hF⟩⟩
  · rintro ⟨⟨shape, h0⟩, ⟨clock, h1⟩, ⟨wrapSource, h6⟩, ⟨inputEdge, h7⟩, ⟨matchAction, h8⟩, ⟨initialLevel, h9⟩,
      ⟨polarity, hA⟩, ⟨restLevel, hB⟩, ⟨retrigger, hC⟩, ⟨rearm, hD⟩, ⟨linkAction, hE⟩, ⟨linkWrap, hF⟩⟩
    exact ⟨{ shape, clock, period := halfAt r 0x02, action := halfAt r 0x04, wrapSource, inputEdge, matchAction,
              initialLevel, polarity, restLevel, retrigger, rearm, linkAction, linkWrap },
      readSettings_eq_some.2 ⟨h0, h1, rfl, rfl, h6, h7, h8, h9, hA, hB, hC, hD, hE, hF⟩⟩

/-! ## Legal settings (R53) -/

theorem Settings.marksLegal_iff (st : Settings) : st.marksLegal = true ↔
    ¬ (st.shape ≠ .oneShot ∧ st.wrapSource = .action ∧ st.action = 0) ∧ ¬ (st.shape = .oneShot ∧ st.action = 0) := by
  cases shape : st.shape <;> simp [Settings.marksLegal, shape, imp_iff_not_or]

theorem Settings.inputLegal_iff (st : Settings) : st.inputLegal = true ↔
    ¬ (st.shape = .capture ∧ st.clock.isEdge = true) ∧
    ¬ (st.shape = .oneShot ∧ st.clock.isEdge = true ∧ st.inputEdge ≠ .none) ∧
    ¬ ((st.shape = .matching ∨ st.shape = .wave) ∧ st.inputEdge ≠ .none) := by
  cases shape : st.shape <;> simp [Settings.inputLegal, shape]
  cases st.clock.isEdge <;> simp

theorem Settings.linksLegal_iff (st : Settings) (own : ChanId) : st.linksLegal own = true ↔
    ¬ (st.linkAction = .fire own ∨ st.linkWrap = .fire own) := by
  simp [Settings.linksLegal]

theorem legalSettings_eq_some {own : ChanId} {r : BitVec 160} {st : Settings} :
    legalSettings own r = some st ↔ readSettings r = some st ∧ st.legal own = true := by
  unfold legalSettings
  cases read : readSettings r with
  | none => simp
  | some c =>
    simp only [Option.ite_none_right_eq_some, Option.some.injEq]
    constructor
    · rintro ⟨legal, rfl⟩
      exact ⟨rfl, legal⟩
    · rintro ⟨rfl, legal⟩
      exact ⟨legal, rfl⟩

theorem Clock.isEdge_iff (k : Clock) : k.isEdge = true ↔ k = .edgeRise ∨ k = .edgeFall ∨ k = .edgeBoth := by
  cases k <;> simp [Clock.isEdge]

/-! ## The row of a channel verb (assumption log 4) -/

section
variable {s : State} {e : Entry} {rest : List Entry} (h : s.dueNow e rest) {ch : ChanId} {v : ChanVerb}
  (action : e.cue.action = .channel ch v)
include h action

/-- A channel verb that produces no record and has a plain outcome. -/
theorem exec_channelVerb_plain {o : CueOutcome} {c : Channel}
    (taken : (s.chan ch).take ch s.now e.cue.tag v = (c, o, [])) (plain : plainOutcome o = true) :
    ∃ t, exec (rowOf (.channel ch v)) s = .next t ∧ retiredPlain s t e rest o s.wr ∧ onlyChannel s t ch c := by
  rw [← action, exec_rowOf h.1 (dueNow_expired h)]
  exact ⟨_, rfl, takeExpiry_channel_plain h action taken plain⟩

/-- A channel verb that is refused. -/
theorem exec_channelVerb_refused {o : CueOutcome}
    (taken : (s.chan ch).take ch s.now e.cue.tag v = (s.chan ch, o, [])) (refused : refusingOutcome o = true) :
    ∃ t, exec (rowOf (.channel ch v)) s = .next t ∧ retiredRefused s t e rest o s.wr ∧
      onlyChannel s t ch (s.chan ch) := by
  rw [← action, exec_rowOf h.1 (dueNow_expired h)]
  exact ⟨_, rfl, takeExpiry_channel_refused h action taken refused⟩

end

/-! ## SET (R62) -/

/-- Settles O26: what a settings record spells, when it is legal, and what a SET with a legal one does. -/
theorem setCue : Obligations.SetCue := by
  refine ⟨fun own r st => ?_, fun s e rest ch r st due action legal mode => ?_, fun r => ?_, Clock.isEdge_iff⟩
  · simp only [legalSettings_eq_some, Settings.legal, Bool.and_eq_true, Settings.marksLegal_iff,
      Settings.inputLegal_iff, Settings.linksLegal_iff, and_assoc]
  · refine exec_channelVerb_plain (v := .set r) due action ?_ rfl
    simp only [Channel.take, Channel.set, if_pos mode, legal]
  · refine ⟨?_, fun st read => ?_⟩
    · rw [exists_readSettings]
      simp only [Shape.exists_code, Clock.exists_code, WrapSource.exists_code, InputEdge.exists_code,
        MatchAction.exists_code, exists_levelNumber, Polarity.exists_code, Retrigger.exists_code, exists_rearm_code,
        Link.exists_spelt]
      rfl
    · obtain ⟨h0, h1, h2, h4, h6, h7, h8, h9, hA, hB, hC, hD, hE, hF⟩ := readSettings_eq_some.1 read
      refine ⟨h0, h1, h2, h4, h6, h7, h8, h9, hA, hB, hC, hD, ?_, ?_⟩
      · cases link : st.linkAction <;> rw [link] at hE
        exacts [hE.1, hE, hE]
      · cases link : st.linkWrap <;> rw [link] at hF
        exacts [hF.1, hF, hF]

end Sys2Proof.Machine
end

section
/-! PROOFS. START, STOP, PAUSE, RESUME, STAGE, FIRE, SNAPSHOT, NOTE and CLOSE_PAGE, and the verbs that a channel refuses
(sections 3.4, 3.5, 4.4.1; R10, R11, R63 to R69, R91). -/

namespace Sys2Proof.Machine

/-! ## START (R63, R64) -/

/-- The staged marks taken into the active settings (R70). -/
theorem Channel.takeMarks_of_settings {c : Channel} {active : Settings} (settings : c.settings = some active) :
    c.takeMarks = { c with settings := some (c.staged.elim active active.withMarks), staged := none } := by
  cases staged : c.staged with
  | none =>
    cases c
    simp_all [Channel.takeMarks]
  | some m => simp [Channel.takeMarks, settings, staged]

/-- The output by shape at START. -/
theorem Settings.startLevel_eq (st : Settings) : st.startLevel =
    match st.shape with
      | .matching => st.initialLevel
      | .wave => if (st.polarity = .activeHigh ↔ st.action ≠ 0) then .high else .low
      | .oneShot => if st.polarity = .activeHigh then .low else .high
      | .capture => st.restLevel := by
  cases shape : st.shape <;> simp [Settings.startLevel, shape, Settings.waveStart_eq, Polarity.inactive_eq]

/-- Settles O27: START takes the staged marks and starts over, or is ALREADY of an ARMED channel. -/
theorem startCue : Obligations.StartCue := by
  intro s e rest ch active st due action settings marks
  have taken : st = (s.chan ch).staged.elim active active.withMarks := by
    rw [marks]
    cases (s.chan ch).staged <;> rfl
  refine ⟨fun mode => ?_, fun armed => ?_⟩
  · refine exec_channelVerb_plain (v := .start) due action ?_ rfl
    have starts : (s.chan ch).start s.now e.cue.tag = (((s.chan ch).restartFresh s.now e.cue.tag).startOutput, .done) := by
      rcases mode with mode | mode | mode | mode <;> simp only [Channel.start, mode]
    simp only [Channel.take, starts, Channel.restartFresh, Channel.takeMarks_of_settings settings, ← taken,
      Channel.startOutput, Settings.startLevel_eq] <;> rfl
  · refine exec_channelVerb_plain (v := .start) due action ?_ rfl
    simp only [Channel.take, Channel.start, armed]

/-! ## STOP, PAUSE and RESUME (R65 to R67) -/

/-- Settles O28: STOP, PAUSE and RESUME by the channel's state. -/
theorem stopPauseResumeCues : Obligations.StopPauseResumeCues := by
  intro s e rest ch due
  refine ⟨fun action => ⟨fun mode => ?_, fun mode => ?_, fun mode => ?_⟩,
    fun action => ⟨fun mode => ?_, fun mode => ?_, fun mode => ?_, fun mode => ?_⟩,
    fun action => ⟨fun mode => ?_, fun mode paused => ?_, fun mode paused => ?_⟩⟩
  · refine exec_channelVerb_plain (v := .stop) due action ?_ rfl
    rcases mode with mode | mode | mode | mode <;> simp only [Channel.take, Channel.stop, Channel.halt, mode]
  · refine exec_channelVerb_plain (v := .stop) due action ?_ rfl
    simp only [Channel.take, Channel.stop, mode]
  · refine exec_channelVerb_refused (v := .stop) due action ?_ rfl
    simp only [Channel.take, Channel.stop, mode]
  · refine exec_channelVerb_plain (v := .pause) due action ?_ rfl
    simp only [Channel.take, Channel.pause, mode]
  · refine exec_channelVerb_plain (v := .pause) due action ?_ rfl
    simp only [Channel.take, Channel.pause, mode]
  · refine exec_channelVerb_plain (v := .pause) due action ?_ rfl
    simp only [Channel.take, Channel.pause, mode]
  · refine exec_channelVerb_refused (v := .pause) due action ?_ rfl
    rcases mode with mode | mode | mode <;> simp only [Channel.take, Channel.pause, mode]
  · refine exec_channelVerb_refused (v := .resume) due action ?_ rfl
    simp only [Channel.take, Channel.resume]
    split
    · next paused _ => exact absurd paused mode
    · rfl
  · refine exec_channelVerb_plain (v := .resume) due action ?_ rfl
    simp only [Channel.take, Channel.resume, mode, paused, PausedFrom.mode]
  · refine exec_channelVerb_plain (v := .resume) due action ?_ rfl
    simp only [Channel.take, Channel.resume, mode, paused, PausedFrom.mode]

/-! ## STAGE and FIRE (R69, R91) -/

/-- STAGE of a channel with settings (R69). -/
theorem Channel.stage_eq {c : Channel} {st : Settings} (set : c.mode ≠ .unset) (settings : c.settings = some st) (m : Marks) :
    c.stage m = if (st.withMarks m).marksLegal then
      ({ c with staged := some m }, if c.staged.isSome then .doneReplacing else .done) else (c, .refusedSettings) := by
  unfold Channel.stage
  cases mode : c.mode <;> simp_all

section
variable {c : Channel} {st : Settings} (now : Tick) (settings : c.settings = some st) (shape : st.shape = .oneShot)
include settings shape

theorem Channel.fire_of_armed (armed : c.mode = .armed) :
    c.fire now = (c.pulseBegun now (if st.polarity = .activeHigh then .high else .low), .done) := by
  have result : (c.trigger now).2 = .taken := by simp [Channel.trigger, settings, shape, armed]
  rw [← Channel.trigger_of_armed now settings shape armed]
  revert result
  unfold Channel.fire
  rcases c.trigger now with ⟨c', given⟩
  rintro rfl
  rfl

theorem Channel.fire_of_extend (pulsing : c.mode = .pulsing) (extend : st.retrigger = .extend) :
    c.fire now = (c.pulseRestart now, .done) := by
  simp [Channel.fire, Channel.trigger, settings, shape, pulsing, extend]

theorem Channel.fire_of_ignore (pulsing : c.mode = .pulsing) (ignore : st.retrigger = .ignore) :
    c.fire now = (c, .ignored) := by
  simp [Channel.fire, Channel.trigger, settings, shape, pulsing, ignore]

end

/-- Settles O29: STAGE of legal marks, and FIRE of an ARMED and of a PULSING channel. -/
theorem stageAndFireCues : Obligations.StageAndFireCues := by
  refine ⟨fun s e rest ch m st due action set settings => ?_, fun s e rest ch st due action settings shape =>
    ⟨fun armed => ?_, fun pulsing extend => ?_, fun pulsing ignore => ?_⟩⟩
  · intro a notCounting notPulse
    have legal : (st.withMarks m).marksLegal = true := (Settings.marksLegal_iff _).2 ⟨notCounting, notPulse⟩
    have outcome : (if (s.chan ch).staged.isSome then CueOutcome.doneReplacing else .done) =
        if (s.chan ch).staged = none then .done else .doneReplacing := by
      cases (s.chan ch).staged <;> rfl
    refine exec_channelVerb_plain (v := .stage m) due action ?_ (by split <;> rfl)
    simp only [Channel.take, Channel.stage_eq set settings, legal, if_true, outcome]
  · refine exec_channelVerb_plain (v := .fire) due action ?_ rfl
    simp only [Channel.take, Channel.fire_of_armed s.now settings shape armed, Channel.pulseBegun]
  · refine exec_channelVerb_plain (v := .fire) due action ?_ rfl
    simp only [Channel.take, Channel.fire_of_extend s.now settings shape pulsing extend, Channel.pulseRestart]
  · refine exec_channelVerb_plain (v := .fire) due action ?_ rfl
    simp only [Channel.take, Channel.fire_of_ignore s.now settings shape pulsing ignore]

/-! ## SNAPSHOT, NOTE and CLOSE_PAGE (R10, R11, R68) -/

section
variable {s : State} {e : Entry} {rest : List Entry} (h : s.dueNow e rest)
include h

/-- The row of an entry due now dispatches it. -/
theorem exec_row_of_dueNow {a : Action} (action : e.cue.action = a) :
    exec (rowOf a) s = .next (State.dispatch { s with cal := rest } e none) := by
  rw [← action, exec_rowOf h.1 (dueNow_expired h), dueNow_take h]

theorem exec_note_of_dueNow {p : BitVec 128} (action : e.cue.action = .engine (.note p)) :
    ∃ t, exec .note s = .next t ∧ t.chans = s.chans ∧ t.conv = s.conv ∧
      retiredPlain s t e rest .done
        (s.wr.offer s.now (.note e.cue.tag (if e.cue.payloadPresent then some p else none) s.now)) := by
  have row := exec_row_of_dueNow h action
  rw [State.dispatch_note _ _ action] at row
  refine ⟨_, row, by simp, by simp, retireEntry_plain rfl ?_⟩
  exact ⟨rfl, rfl, rfl, rfl, rfl, rfl, rfl, rfl, rfl, rfl, rfl⟩

theorem exec_closePage_of_place (action : e.cue.action = .engine .closePage) (room : s.wr.queue.length < 32)
    (keeps : s.wr.keeps = true) :
    ∃ t, exec .closePage s = .next t ∧ t.chans = s.chans ∧ t.conv = s.conv ∧
      retiredTo s t e rest .done false
        { s.wr with queue := s.wr.queue ++ [.closeMarker {
            lane := e.lane, seq := e.seq, tag := e.cue.tag,
            report := e.cue.report, time := s.now, lateness := none }] } s.win.alert := by
  have row := exec_row_of_dueNow h action
  have place : s.wr.hasPlace = true := decide_eq_true room
  rw [State.dispatch_closePage _ _ action, State.dispatchClosePage, if_pos (by exact place), if_pos (by exact keeps)] at row
  exact ⟨_, row, rfl, rfl, rfl, rfl, rfl, rfl, rfl, rfl, rfl, rfl, rfl, rfl, rfl⟩

theorem exec_closePage_of_full (action : e.cue.action = .engine .closePage) (full : s.wr.queue.length = 32) :
    ∃ t, exec .closePage s = .next t ∧ t.chans = s.chans ∧ t.conv = s.conv ∧
      retiredRefused s t e rest .refusedQueueFull s.wr := by
  have row := exec_row_of_dueNow h action
  have noPlace : ¬ s.wr.hasPlace = true := fun place => absurd (of_decide_eq_true place) (by rw [full]; decide)
  rw [State.dispatch_closePage _ _ action, State.dispatchClosePage, if_neg (by exact noPlace)] at row
  refine ⟨_, row, by simp, by simp, retireEntry_refused rfl ?_⟩
  exact ⟨rfl, rfl, rfl, rfl, rfl, rfl, rfl, rfl, rfl, rfl, rfl⟩

end

/-- Settles O30: the records of SNAPSHOT and NOTE, and the close marker of CLOSE_PAGE. -/
theorem snapshotNoteAndClosePageCues : Obligations.SnapshotNoteAndClosePageCues := by
  refine ⟨fun s e rest ch due action => ?_, fun s e rest due => ⟨fun p action => exec_note_of_dueNow due action,
    fun action room keeps => exec_closePage_of_place due action room keeps,
    fun action full => exec_closePage_of_full due action full⟩⟩
  have row : exec (.snapshot ch) s = .next s.takeExpiry := by
    have dispatched := exec_rowOf due.1 (dueNow_expired due)
    rw [action] at dispatched
    exact dispatched
  obtain ⟨retired, channel⟩ := takeExpiry_channel_plain due action (v := .snapshot) rfl rfl
  exact ⟨_, row, channel, retired⟩

/-! ## The verbs that a channel refuses -/

/-- Settles O31: a refused verb leaves its channel and is reported. -/
theorem refusedChannelVerbs : Obligations.RefusedChannelVerbs := by
  intro s e rest ch v due action
  rw [action]
  refine ⟨fun refused => ?_, fun r verb mode illegal => ?_, fun m st verb set settings shape zero => ?_⟩
  · refine exec_channelVerb_refused due action ?_ rfl
    rcases refused with ⟨⟨r, rfl⟩, notUnset, notStopped⟩ | ⟨notSnapshot, notSet, unset⟩ | ⟨rfl, notArmed, notPulsing⟩
    · simp only [Channel.take, Channel.set, notUnset, notStopped, or_self, if_false]
    · cases v with
      | set r => exact absurd rfl (notSet r)
      | snapshot => exact absurd rfl notSnapshot
      | start => simp only [Channel.take, Channel.start, unset]
      | stop => simp only [Channel.take, Channel.stop, unset]
      | pause => simp only [Channel.take, Channel.pause, unset]
      | resume => simp only [Channel.take, Channel.resume, unset]
      | stage m => simp only [Channel.take, Channel.stage, unset]
      | fire =>
        simp only [Channel.take, Channel.fire, Channel.trigger, unset]
        cases (s.chan ch).settings <;> simp
    · simp only [Channel.take, Channel.fire, Channel.trigger, notArmed, notPulsing]
      cases (s.chan ch).settings <;> simp
  · subst verb
    refine exec_channelVerb_refused due action ?_ rfl
    simp only [Channel.take, Channel.set, if_pos mode, illegal]
  · subst verb
    have illegal : ¬ (st.withMarks m).marksLegal = true := fun legal => by
      obtain ⟨notCounting, notPulse⟩ := (Settings.marksLegal_iff _).1 legal
      rcases shape with ⟨other, source⟩ | oneShot
      · exact notCounting ⟨other, source, zero⟩
      · exact notPulse ⟨oneShot, zero⟩
    refine exec_channelVerb_refused due action ?_ rfl
    simp only [Channel.take, Channel.stage_eq set settings, if_neg illegal]

end Sys2Proof.Machine
end

section
/-! PROOFS. The Converter's cues (section 5.3; R106, R107, R109, R110, R112, R114). -/

namespace Sys2Proof.Machine

/-- An operation's ticks are its length over the tick divider, rounded up (R106). -/
theorem opTicks_bounds (units : Nat) {divider : Nat} (positive : 0 < divider) :
    units ≤ opTicks units divider * divider ∧ opTicks units divider * divider < units + divider := by
  have below := Nat.div_mul_le_self (units + divider - 1) divider
  have above := Nat.lt_div_mul_add (a := units + divider - 1) positive
  unfold opTicks
  omega

/-! ## The row of a Converter verb (assumption log 4) -/

section
variable {s : State} {e : Entry} {rest : List Entry} (h : s.dueNow e rest) {v : ConvVerb}
  (action : e.cue.action = .converter v) {o : CueOutcome} {c : Converter} {records : List Rec}
  (taken : s.conv.take (.cue e.lane e.seq) e.cue.tag s.now s.tb.divider v = (c, o, records))
include h action taken

theorem exec_convVerb_plain (plain : plainOutcome o = true) :
    ∃ t, exec (rowOf (.converter v)) s = .next t ∧ retiredPlain s t e rest o (s.wr.offered s.now records) ∧
      t.chans = s.chans ∧ t.conv = c := by
  have row := exec_row_of_dueNow h action
  have taken' : ({ s with cal := rest } : State).conv.take (.cue e.lane e.seq) e.cue.tag
    (State.now { s with cal := rest }) s.tb.divider v = (c, o, records) := taken
  rw [State.dispatch_converter _ _ action, taken'] at row
  refine ⟨_, row, retireEntry_plain plain ?_, by simp, by simp⟩
  exact ⟨rfl, rfl, rfl, rfl, rfl, rfl, rfl, rfl, rfl, rfl, rfl⟩

theorem exec_convVerb_refused (refused : refusingOutcome o = true) :
    ∃ t, exec (rowOf (.converter v)) s = .next t ∧ retiredRefused s t e rest o (s.wr.offered s.now records) ∧
      t.chans = s.chans ∧ t.conv = c := by
  have row := exec_row_of_dueNow h action
  have taken' : ({ s with cal := rest } : State).conv.take (.cue e.lane e.seq) e.cue.tag
    (State.now { s with cal := rest }) s.tb.divider v = (c, o, records) := taken
  rw [State.dispatch_converter _ _ action, taken'] at row
  refine ⟨_, row, retireEntry_refused refused ?_, by simp, by simp⟩
  exact ⟨rfl, rfl, rfl, rfl, rfl, rfl, rfl, rfl, rfl, rfl, rfl⟩

end

/-! ## POWER_ON and POWER_OFF (R107, R109) -/

section
variable {c : Converter} (now : Tick)

theorem Converter.powerOn_of_off (divider : Nat) (off : c.power = .off) : c.powerOn now divider =
    ({ c with power := .warming, endTick := some (now.toNat + warmUpTicks divider) }, .done) := by
  simp only [Converter.powerOn, off]

theorem Converter.powerOn_of_not_off (divider : Nat) (on : c.power ≠ .off) : c.powerOn now divider = (c, .already) := by
  unfold Converter.powerOn
  cases power : c.power <;> simp_all

theorem Converter.powerOff_of_off (off : c.power = .off) : c.powerOff now = (c, .already, []) := by
  simp only [Converter.powerOff, off]

theorem Converter.powerOff_of_not_off (on : c.power ≠ .off) :
    c.powerOff now = (c.emptied, .done, c.held.map fun r => dropRecord r .powerOff now) := by
  unfold Converter.powerOff
  cases power : c.power <;> simp_all

end

theorem Converter.held_eq (c : Converter) :
    c.held = (c.inFlight.map Conversion.request).toList ++ c.queue := by
  unfold Converter.held
  cases c.inFlight <;> rfl

/-- Settles O32: POWER_ON begins a warm-up, and POWER_OFF empties the Converter. -/
theorem powerCues : Obligations.PowerCues := by
  intro s e rest due positive
  refine ⟨fun action off => ?_, fun action on => ?_, fun action off => ?_, fun action on => ?_⟩
  · obtain ⟨t, row, retired, chans, conv⟩ := exec_convVerb_plain (v := .powerOn) due action (by
      simp only [Converter.take, Converter.powerOn_of_off s.now s.tb.divider off]
      rfl) rfl
    obtain ⟨least, most⟩ := opTicks_bounds 3000 positive
    exact ⟨t, warmUpTicks s.tb.divider, row, retired, chans, conv, least, most⟩
  · exact exec_convVerb_plain (v := .powerOn) (records := []) due action (by
      simp only [Converter.take, Converter.powerOn_of_not_off s.now s.tb.divider on]) rfl
  · exact exec_convVerb_plain (v := .powerOff) (records := []) due action (by
      simp only [Converter.take, Converter.powerOff_of_off s.now off]) rfl
  · obtain ⟨t, row, retired, chans, conv⟩ := exec_convVerb_plain (v := .powerOff) due action (by
      simp only [Converter.take, Converter.powerOff_of_not_off s.now on]
      rfl) rfl
    rw [Writer.offered, List.foldl_map, Converter.held_eq] at retired
    exact ⟨t, row, chans, retired, conv⟩

/-! ## REFERENCE (R110, Table 5-5) -/

section
variable {c : Converter} {ref : Reference} (now : Tick) (divider : Nat)

theorem Converter.reference_of_selected (same : ref = c.selected) : c.reference ref now divider = (c, .already) :=
  if_pos same

theorem Converter.reference_of_not_selected (other : ref ≠ c.selected) :
    (c.reference ref now divider).2 = .done ∧
    (c.power = .off ∨ c.power = .warming → (c.reference ref now divider).1 = { c with current := ref }) ∧
    (c.power = .ready ∨ c.power = .settling → (c.reference ref now divider).1 =
      { c with current := ref, power := .settling, endTick := some (now.toNat + settlingTicks divider) }) ∧
    (c.power = .converting → (c.reference ref now divider).1 =
      { c with pendingRef := if c.pendingRef = none then some ref else none }) := by
  simp only [Converter.reference, if_neg other]
  cases power : c.power with
  | converting => cases pending : c.pendingRef <;> simp
  | off => simp
  | warming => simp
  | ready => simp
  | settling => simp

end

/-- Settles O33: REFERENCE by the Converter's power state. -/
theorem referenceCue : Obligations.ReferenceCue := by
  intro s e rest ref due positive action
  refine ⟨fun same => ?_, fun other => ?_⟩
  · exact exec_convVerb_plain (v := .reference ref) (records := []) due action (by
      simp only [Converter.take, Converter.reference_of_selected s.now s.tb.divider same]) rfl
  · obtain ⟨done, unpowered, idle, converting⟩ := Converter.reference_of_not_selected s.now s.tb.divider other
    obtain ⟨t, row, retired, chans, conv⟩ := exec_convVerb_plain (v := .reference ref) (records := []) due action (by
      simp only [Converter.take, done]
      rfl) rfl
    obtain ⟨least, most⟩ := opTicks_bounds 2000 positive
    refine ⟨t, row, retired, chans, fun power => conv.trans (unpowered power), fun power => ?_,
      fun power => conv.trans (converting power)⟩
    exact ⟨settlingTicks s.tb.divider, conv.trans (idle power), least, most⟩

/-! ## CONVERT (R112, R114) -/

/-- The requests that fit join in order, and the others are dropped. -/
theorem Converter.joinAll_eq (c : Converter) (now : Tick) (requests : List ConvRequest) :
    c.joinAll now requests = ({ c with queue := c.queue ++ requests.take (8 - c.queue.length) },
      min requests.length (8 - c.queue.length),
      (requests.drop (8 - c.queue.length)).map fun r => dropRecord r .queueFull now) := by
  induction requests generalizing c with
  | nil => simp [Converter.joinAll]
  | cons r requests ih =>
    unfold Converter.joinAll
    by_cases room : c.queue.length < 8
    · obtain ⟨n, left⟩ : ∃ n, 8 - c.queue.length = n + 1 := ⟨7 - c.queue.length, by omega⟩
      have less : 8 - (c.queue.length + 1) = n := by omega
      rw [if_pos (by exact decide_eq_true room)]
      simp only [ih, List.length_append, List.length_nil, zero_add, left, less, List.take_succ_cons, List.drop_succ_cons,
        List.append_assoc, List.singleton_append, List.length_cons]
      rw [Nat.add_min_add_right]
    · have full : 8 - c.queue.length = 0 := by omega
      have noRoom : ¬ c.hasRoom = true := fun yes => room (of_decide_eq_true yes)
      rw [if_neg noRoom]
      simp [ih, full]

theorem Converter.startOldest_of_ready {c : Converter} {r : ConvRequest} {requests : List ConvRequest} (now : Tick)
    (divider : Nat) (ready : c.power = .ready) (queue : c.queue = r :: requests) :
    c.startOldest now divider =
      { c with power := .converting, queue := requests, endTick := some (now.toNat + conversionTicks divider),
               samples := c.samples + 1,
               inFlight := some { request := r, start := now, ref := c.current, index := c.samples } } := by
  simp only [Converter.startOldest, ready, queue]

theorem Converter.startOldest_of_not_ready {c : Converter} (now : Tick) (divider : Nat) (busy : c.power ≠ .ready) :
    c.startOldest now divider = c := by
  unfold Converter.startOldest
  split
  · next ready _ => exact absurd ready busy
  · rfl

theorem Converter.convert_of_off {c : Converter} (mask : BitVec 10) (source : Source) (tag : Half) (now : Tick)
    (divider : Nat) (off : c.power = .off) : c.convert mask source tag now divider = (c, .refusedConverterOff, []) := by
  simp only [Converter.convert, off]

/-- The outcome of a CONVERT of `n` requests with this much room. -/
def convertOutcome (n room : Nat) : CueOutcome :=
  if n ≤ room then .done else if room = 0 then .refusedQueueFull else .partly

/-- CONVERT in a Converter that has power. -/
theorem Converter.convert_of_not_off {c : Converter} (mask : BitVec 10) (source : Source) (tag : Half) (now : Tick)
    (divider : Nat) (on : c.power ≠ .off) :
    c.convert mask source tag now divider =
      (Converter.startOldest { c with queue := c.queue ++
          (convertRequests mask source tag).take (8 - c.queue.length) } now divider,
        convertOutcome (convertRequests mask source tag).length (8 - c.queue.length),
        ((convertRequests mask source tag).drop (8 - c.queue.length)).map fun r => dropRecord r .queueFull now) := by
  have outcome : ∀ n room : Nat, (if min n room = n then CueOutcome.done else
      if min n room = 0 then .refusedQueueFull else .partly) = convertOutcome n room := fun n room => by
    unfold convertOutcome
    by_cases fits : n ≤ room
    · rw [if_pos (by omega), if_pos fits]
    · rw [if_neg (by omega), if_neg fits]
      by_cases none : room = 0
      · rw [if_pos (by omega), if_pos none]
      · rw [if_neg (by omega), if_neg none]
  rw [← outcome]
  unfold Converter.convert
  split
  · next off => exact absurd off on
  all_goals simp only [Converter.joinAll_eq]

/-- Settles O34: CONVERT queues what fits, drops the rest, and starts the oldest request of a READY Converter. -/
theorem convertCue : Obligations.ConvertCue := by
  intro s e rest mask due action requests room dropped
  have whole : requests.length ≤ room → requests.take room = requests ∧ requests.drop room = [] := fun fits =>
    ⟨List.take_of_length_le fits, List.drop_of_length_le fits⟩
  have taken : s.conv.power ≠ .off →
      s.conv.take (.cue e.lane e.seq) e.cue.tag s.now s.tb.divider (.convert mask) =
        (Converter.startOldest { s.conv with queue := s.conv.queue ++ requests.take room } s.now s.tb.divider,
          convertOutcome requests.length room,
          (requests.drop room).map fun r => dropRecord r .queueFull s.now) := fun on =>
    Converter.convert_of_not_off mask (.cue e.lane e.seq) e.cue.tag s.now s.tb.divider on
  refine ⟨fun off => ?_, fun on busy fits => ?_, fun r rs ready empty positive first fits => ?_, fun on busy many => ?_,
    fun r rs ready empty positive first many => ?_⟩
  · exact exec_convVerb_refused (v := .convert mask) (records := []) due action
      (Converter.convert_of_off mask _ _ s.now _ off) rfl
  · have fits : requests.length ≤ room := by omega
    have outcome : convertOutcome requests.length room = .done := if_pos fits
    have result := taken on
    rw [(whole fits).1, (whole fits).2, outcome, Converter.startOldest_of_not_ready _ _ (by exact busy)] at result
    exact exec_convVerb_plain due action result rfl
  · have fits : requests.length ≤ room := by
      rw [first]
      simpa [room, empty] using fits
    have outcome : convertOutcome requests.length room = .done := if_pos fits
    have result := taken (by rw [ready]; decide)
    rw [(whole fits).1, (whole fits).2, outcome, Converter.startOldest_of_ready (r := r) (requests := rs) _ _
      (by exact ready) (by simp only [empty, first, List.nil_append])] at result
    obtain ⟨t, row, retired, chans, conv⟩ := exec_convVerb_plain due action result rfl
    obtain ⟨least, most⟩ := opTicks_bounds 400 positive
    exact ⟨t, _, row, retired, chans, conv, least, most⟩
  · have outcome : convertOutcome requests.length room = if room = 0 then .refusedQueueFull else .partly :=
      if_neg (by omega)
    have result := taken on
    rw [outcome, Converter.startOldest_of_not_ready _ _ (by exact busy)] at result
    exact exec_convVerb_refused due action result (by split <;> rfl)
  · have eight : room = 8 := by simp [room, empty]
    have outcome : convertOutcome requests.length room = .partly := by
      rw [convertOutcome, if_neg (by rw [first, eight]; omega), if_neg (by rw [eight]; decide)]
    have result := taken (by rw [ready]; decide)
    rw [outcome, Converter.startOldest_of_ready (r := r) (requests := rs.take 7) _ _
      (by exact ready) (by simp only [empty, first, eight, List.nil_append, List.take_succ_cons])] at result
    obtain ⟨t, row, retired, chans, conv⟩ := exec_convVerb_refused due action result rfl
    obtain ⟨least, most⟩ := opTicks_bounds 400 positive
    exact ⟨t, _, row, retired, chans, conv, least, most⟩

end Sys2Proof.Machine
end

section
/-! PROOFS. The END cue and the offer of a lane's head (sections 1.3, 1.4; R12, R14, R15, R18, R39, R157). -/

namespace Sys2Proof.Machine

/-! ## END (R12, R157) -/

section
variable {s u : State} {e : Entry} {rest : List Entry} {mustReport : Bool} {w : Writer} {alert : Byte}
  (retired : retiredTo s u e rest .done mustReport w alert)
include retired

/-- The lanes after a retirement. -/
theorem lane_of_retiredTo (i : LaneId) :
    u.lane i = if e.lane = i then (s.lane i).retire e.trailRef else s.lane i := by
  obtain ⟨-, loader, -⟩ := retired
  by_cases same : e.lane = i
  · subst same
    simp [State.lane, loader]
  · have other : e.lane.val ≠ i.val := fun h => same (Fin.ext h)
    simp [State.lane, loader, same, other]

/-- The lanes' entries retired after the END cue itself. -/
theorem laneRetired_of_retiredTo (i : LaneId) : u.laneRetired rest i = s.laneRetired (e :: rest) i := by
  unfold State.laneRetired
  rw [lane_of_retiredTo retired]
  by_cases same : e.lane = i
  · rw [if_pos same, List.filter_cons_of_pos (by simpa using same), List.foldl_cons]
  · rw [if_neg same, List.filter_cons_of_neg (by simpa using same)]

theorem acceptedHead_of_retiredTo (i : LaneId) : (u.lane i).acceptedHead = (s.lane i).acceptedHead := by
  rw [lane_of_retiredTo retired]
  split
  · exact Lane.retire_acceptedHead _ _
  · rfl

/-- The count of a lane after the END cue and the cancellations of its drain. -/
theorem cuesRetired_of_endCue (i : LaneId) (head : (s.lane i).head = none ∨ (s.lane i).acceptedHead.isSome) :
    ((u.laneRetired rest i).stopped.cancelHead).cuesRetired = (s.lane i).cuesRetired +
      BitVec.ofNat 32 (s.cancelledOf rest i + (if e.lane = i then 1 else 0)) := by
  have cal : u.cal = rest := retired.1
  have head' : (u.lane i).head = none ∨ (u.lane i).acceptedHead.isSome := by
    rw [acceptedHead_of_retiredTo retired]
    refine head.imp_left fun empty => ?_
    rw [lane_of_retiredTo retired]
    split
    · exact (Lane.retire_of_not_held (.inl empty) _).1.trans empty
    · exact empty
  have counted := u.cuesRetired_of_stop head'
  have cancelled : u.cancelledOf rest i = s.cancelledOf rest i := by
    simp only [State.cancelledOf, acceptedHead_of_retiredTo retired]
  rw [cal, cancelled, lane_of_retiredTo retired] at counted
  rw [counted]
  split
  · rw [(Lane.retire_of_not_held head e.trailRef).2, Nat.add_comm, BitVec.ofNat_add, BitVec.add_assoc]
    rfl
  · rfl

end

/-- Settles O35: the END cue is retired and reported, and the drain begins behind it. -/
theorem endCue : Obligations.EndCue := by
  intro s e rest due action noReset
  have row := exec_row_of_dueNow due action
  rw [State.dispatch_endCue _ _ action, State.dispatchEnd] at row
  have retired : retiredPlain s (State.retireEntry { s with cal := rest } e .done none) e rest .done s.wr :=
    retireEntry_plain rfl ⟨rfl, rfl, rfl, rfl, rfl, rfl, rfl, rfl, rfl, rfl, rfl⟩
  have chans : (State.retireEntry { s with cal := rest } e .done none).chans = s.chans := by simp
  have conv : (State.retireEntry { s with cal := rest } e .done none).conv = s.conv := by simp
  have outcome : dispatchOutcome none CueOutcome.done = .done := rfl
  rw [outcome] at row
  generalize State.retireEntry { s with cal := rest } e .done none = u at *
  have whole : retiredPlain s u e rest .done s.wr := retired
  obtain ⟨cal, loader, wr, win, -, eng, tb, params, links, port, pins⟩ := retired
  rw [if_neg (by rw [eng, noReset]; decide)] at row
  have now : u.now = s.now := congrArg Timebase.count tb
  obtain ⟨queue, closing, flying, -⟩ := s.conv.drain_spec s.now
  have drained : (u.beginDrain .endCue).conv = (s.conv.drain s.now).1 := by rw [State.beginDrain_conv, conv, now]
  have loaderRetired : u.loader = (s.retire e.lane e.trailRef).loader := loader
  obtain ⟨empty, -, -, written, -⟩ := State.beginDrain_of_retired (c := .endCue) e.lane e.trailRef loaderRetired conv tb cal
  refine ⟨_, row, ?_, empty, fun ch => ?_, fun i => ?_, ?_, ?_, ?_, ?_, ?_⟩
  · have idle : (u.conv.drain u.now).1.idle = s.conv.inFlight.isNone := by
      rw [conv, now]
      exact congrArg Option.isNone flying
    rw [State.beginDrain_eng, idle, eng]
    rfl
  · rw [State.chan_eq, State.beginDrain_chans, ← State.chan_eq, State.chan_stopChannels, State.chan_eq, chans]
    rfl
  · rw [State.beginDrain_lane, cal]
    obtain ⟨notActive, notWaiting, notBlocked, noHead⟩ := Lane.stopped_cancelHead (u.laneRetired rest i)
    exact ⟨by rw [laneRetired_of_retiredTo whole], notActive, notWaiting, notBlocked, noHead,
      cuesRetired_of_endCue whole i⟩
  · rw [written, wr]
  · rw [drained, queue]
  · rw [drained, closing]
  · rw [drained, flying]
  · simp [tb, params, links, port, win, pins]

/-! ## The offer of a head (R15, R18, R39) -/

theorem Lane.offers_iff (l : Lane) (h : Head) : l.offers h = true ↔
    l.state = .active ∨ l.state = .waiting ∨ l.state = .ended ∨
      (l.state = .blocked ∧ ∃ x xs, l.trail = x :: xs ∧ x.address = h.trailRef) := by
  cases state : l.state with
  | blocked =>
    simp only [Lane.offers, state, Lane.oldest]
    cases l.trail <;> simp
  | off => simp [Lane.offers, state]
  | active => simp [Lane.offers, state]
  | waiting => simp [Lane.offers, state]
  | ended => simp [Lane.offers, state]
  | faulted => simp [Lane.offers, state]
  | stopped => simp [Lane.offers, state]

/-- A lane with an accepted head offers it in a state that offers it, within the horizon. -/
theorem State.offeredHead_of_accepted {s : State} {i : LaneId} {h : Head} {c : Cue} (takes : s.takesCues = true)
    (head : (s.lane i).head = some h) (body : h.body = .accepted c) :
    s.offeredHead i = if (s.lane i).offers h = true ∧ c.due.toNat ≤ s.now.toNat + s.params.horizon.toNat
      then some (h, c) else none := by
  have accepted : (s.lane i).acceptedHead = some (h, c) := by simp [Lane.acceptedHead, head, body]
  simp only [State.offeredHead, accepted, takes, Bool.true_and, Bool.and_eq_true, decide_eq_true_eq]

theorem State.offeredHead_of_not_accepted {s : State} {i : LaneId}
    (h : (s.lane i).head = none ∨ ∃ h o, (s.lane i).head = some h ∧ h.body = .held o) : s.offeredHead i = none := by
  have accepted : (s.lane i).acceptedHead = none := by
    rcases h with head | ⟨x, o, head, body⟩
    · simp [Lane.acceptedHead, head]
    · simp [Lane.acceptedHead, head, body]
  simp only [State.offeredHead, accepted]

theorem State.takenBefore_iff (s : State) (i : LaneId) (due : Tick) (j : LaneId) : s.takenBefore i due j = true ↔
    ∃ hj cj, s.offeredHead j = some (hj, cj) ∧ (cj.due.toNat < due.toNat ∨ (cj.due = due ∧ j < i)) := by
  unfold State.takenBefore
  cases offered : s.offeredHead j with
  | none => simp
  | some x =>
    obtain ⟨h, c⟩ := x
    simp

theorem State.headTaken_of_not_offered {s : State} {i : LaneId} (h : s.offeredHead i = none) : s.headTaken i = none := by
  unfold State.headTaken
  rw [h, ite_self]

theorem exec_laneHeadOffer_of_not_taken {s : State} {i : LaneId} (free : s.free) (h : s.headTaken i = none) :
    exec (.laneHeadOffer i) s = .next s := by
  rw [exec_laneHeadOffer i s free, State.offerHead, h]

/-- A head taken that is not handled at once stands in the Calendar in its place (R14, R18). -/
theorem State.takeHead_of_inserted {s : State} {i : LaneId} {h : Head} {c : Cue}
    (stays : s.eng.state = .running → s.now.toNat ≤ c.due.toNat ∨ ∃ x ∈ s.cal, (s.entryOf i h c).before x = false) :
    s.takeHead i h c =
      { s with cal := insertEntry (s.entryOf i h c) s.cal
               loader := { s.loader with lanes := s.loader.lanes.set i.val { s.lane i with head := none } i.isLt } } := by
  have notFirst : ¬ (s.eng.state = .running ∧ c.due.toNat < s.now.toNat ∧ s.standsFirst (s.entryOf i h c) = true) := by
    rintro ⟨running, late, first⟩
    rcases stays running with notLate | ⟨x, hx, behind⟩
    · omega
    · rw [List.all_eq_true.mp first x hx] at behind
      cases behind
  rw [State.takeHead, if_neg (by exact notFirst)]
  rfl

/-- Settles O36: which head is offered, which is taken, and where it stands then. -/
theorem headOffer : Obligations.HeadOffer := by
  refine ⟨fun s i h c free takes head body => ?_, fun s i none => ?_, Entry.before_iff⟩
  · intro e offers comesFirst
    have entry : s.entryOf i h c = e := by
      simp only [State.entryOf, e, Bool.decide_and, decide_not]
      rfl
    have offered := State.offeredHead_of_accepted takes head body
    have offersIff : (s.lane i).offers h = true ∧ c.due.toNat ≤ s.now.toNat + s.params.horizon.toNat ↔ offers := by
      rw [Lane.offers_iff]
    have first : ∀ j, s.takenBefore i c.due j = true ↔ comesFirst j := fun j => s.takenBefore_iff i c.due j
    have isOffered : offers → s.offeredHead i = some (h, c) := fun yes => by rw [offered, if_pos (offersIff.mpr yes)]
    have notOffered : ¬ offers → s.offeredHead i = none := fun no => by rw [offered, if_neg (mt offersIff.mp no)]
    refine ⟨isOffered, fun no => ⟨notOffered no, exec_laneHeadOffer_of_not_taken free
      (State.headTaken_of_not_offered (notOffered no))⟩, fun yes free' stays => ?_, fun waits => ?_⟩
    · have taken := State.headTaken_eq_some (isOffered yes)
        (free'.imp_right fun ⟨room, leads⟩ => ⟨room, fun j => by
          rw [← Bool.not_eq_true, first]
          exact leads j⟩)
      have run := exec_laneHeadOffer i s free
      rw [State.offerHead, taken] at run
      dsimp only at run
      rw [State.takeHead_of_inserted (by rw [entry]; exact stays), entry] at run
      exact ⟨_, run, insertEntry_perm e s.cal, fun order => insertEntry_ordered e order, rfl⟩
    · refine exec_laneHeadOffer_of_not_taken free ?_
      by_cases yes : offers
      · exact State.headTaken_eq_none (isOffered yes)
          (waits.imp_right fun ⟨few, j, before⟩ => ⟨few, j, (first j).mpr before⟩)
      · exact State.headTaken_of_not_offered (notOffered yes)
  · have none := State.offeredHead_of_not_accepted none
    refine ⟨none, ?_⟩
    by_cases free : s.free
    · exact exec_laneHeadOffer_of_not_taken free (State.headTaken_of_not_offered none)
    · simp [exec, execLaneHeadOffer, act, (by simpa [State.free] using free : s.pins.resetHeld = true)]

end Sys2Proof.Machine
end

section
/-! PROOFS. The deliveries of links (sections 4.5, 5.4; R99 to R101, R103, R115, R116, R120, R121): what takes one out, and that
none is under way but while the session runs or stops. -/

namespace Sys2Proof.Machine

/-! ## Where deliveries are under way -/

/-- Engine Control is where deliveries can be under way: the session runs, or has stopped with its end summary still to
begin (R103, R116). -/
def EngineControl.letsLinks (g : EngineControl) : Prop :=
  (g.state = .running ∨ g.state = .draining ∨ ((g.state = .ended ∨ g.state = .faulted) ∧ g.windDown = false)) ∧
    g.task.isSummary = false

/-- From `g` to `h` Engine Control goes on letting deliveries be under way, and no end marker is placed. -/
def EngineControl.carriesLinks (g h : EngineControl) : Prop :=
  (g.letsLinks → h.letsLinks) ∧
    (h.state = .draining → h.markerPlaced = true → g.state = .draining ∧ g.markerPlaced = true)

theorem State.linksTaken_iff (s : State) : s.linksTaken ↔ (s.links ≠ [] → s.eng.letsLinks) ∧
    (s.eng.state = .draining → s.eng.markerPlaced = true → ∀ d ∈ s.links, d.asksConversion = false) := Iff.rfl

theorem State.linksTaken_of_carries {s t : State} (h : s.linksTaken) (carries : s.eng.carriesLinks t.eng)
    (fewer : t.links ⊆ s.links) : t.linksTaken := by
  obtain ⟨lets, marked⟩ := s.linksTaken_iff.mp h
  refine t.linksTaken_iff.mpr ⟨fun some => carries.1 (lets fun none => some ?_), fun draining placed d hd => ?_⟩
  · exact List.subset_nil.mp (none ▸ fewer)
  · obtain ⟨before, placedBefore⟩ := carries.2 draining placed
    exact marked before placedBefore d (fewer hd)

theorem State.linksTaken_of_none {s : State} (none : s.links = []) : s.linksTaken :=
  s.linksTaken_iff.mpr ⟨fun some => absurd none some, fun _ _ d hd => by rw [none] at hd; cases hd⟩

theorem EngineControl.not_letsLinks_of_state {g : EngineControl}
    (h : g.state = .off ∨ g.state = .preparing ∨ g.state = .armed) : ¬ g.letsLinks := by
  rintro ⟨state, -⟩
  rcases h with h | h | h <;> simp [h] at state

theorem EngineControl.not_letsLinks_of_summary {g : EngineControl} (h : g.task.isSummary = true) : ¬ g.letsLinks := by
  rintro ⟨-, task⟩
  simp [h] at task

/-! ## What each effect makes of Engine Control -/

theorem EngineControl.carriesLinks_refl (g : EngineControl) : g.carriesLinks g := ⟨id, fun h h' => ⟨h, h'⟩⟩

theorem EngineControl.carriesLinks_trans {f g h : EngineControl} (first : f.carriesLinks g) (second : g.carriesLinks h) :
    f.carriesLinks h :=
  ⟨fun lets => second.1 (first.1 lets), fun draining placed =>
    first.2 (second.2 draining placed).1 (second.2 draining placed).2⟩

theorem EngineControl.carriesLinks_of_eq {g h : EngineControl} (same : h.state = g.state ∧ h.windDown = g.windDown ∧
    h.task = g.task ∧ h.markerPlaced = g.markerPlaced) : g.carriesLinks h := by
  obtain ⟨state, windDown, task, marker⟩ := same
  unfold EngineControl.carriesLinks EngineControl.letsLinks
  rw [state, windDown, task, marker]
  exact ⟨id, fun h h' => ⟨h, h'⟩⟩

/-- From where none can be under way to a state other than DRAINING. -/
theorem EngineControl.carriesLinks_of_not {g h : EngineControl} (none : ¬ g.letsLinks) (notDraining : h.state ≠ .draining) :
    g.carriesLinks h := ⟨fun yes => absurd yes none, fun draining => absurd draining notDraining⟩

/-- An abort or a fault: the session has stopped, and no summary is under way. -/
theorem EngineControl.carriesLinks_of_stopped {g h : EngineControl} (state : h.state = .ended ∨ h.state = .faulted)
    (windDown : h.windDown = false) (task : h.task.isSummary = false) : g.carriesLinks h :=
  ⟨fun _ => ⟨.inr (.inr ⟨state, windDown⟩), task⟩, fun draining => by rcases state with h | h <;> simp [h] at draining⟩

theorem EngineControl.carriesLinks_drained (g : EngineControl) (c : EndCause) (idle : Bool) :
    g.carriesLinks (g.drained c idle) :=
  ⟨fun lets => ⟨.inr (.inl rfl), lets.2⟩, fun _ placed => by cases placed⟩

theorem State.carriesLinks_of_keepsOrDrains {s t : State} (h : s.keepsOrDrains t) : s.eng.carriesLinks t.eng := by
  rcases h with h | ⟨-, idle, h⟩
  · rw [h]
    exact s.eng.carriesLinks_refl
  · rw [h]
    exact s.eng.carriesLinks_drained _ _

theorem State.startSession_carriesLinks {s : State} (armed : s.eng.state = .armed) :
    s.eng.carriesLinks s.startSession.eng := by
  have begun : ∀ u : State, u.eng.state = .running → s.eng.carriesLinks u.eng := fun u running =>
    EngineControl.carriesLinks_of_not (EngineControl.not_letsLinks_of_state (.inr (.inr armed))) (by simp [running])
  have handled : ∀ (u : State) (n : Nat), u.eng.state = .running → s.eng.carriesLinks (u.takeExpiries n).eng :=
    fun u n running => EngineControl.carriesLinks_trans (begun u running)
      (State.carriesLinks_of_keepsOrDrains (u.takeExpiries_keepsOrDrains n))
  simp only [State.startSession]
  split
  · exact begun _ rfl
  · exact handled _ _ rfl

theorem State.fatalFault_carriesLinks (s : State) (code : FatalFault) (a : Word) :
    s.eng.carriesLinks (s.fatalFault code a).eng := by
  have task := s.overtakeSummary_task.1
  unfold State.fatalFault
  cases code <;> refine EngineControl.carriesLinks_of_stopped ?_ ?_ ?_ <;> simp [task]

theorem State.abortSession_carriesLinks (s : State) : s.eng.carriesLinks s.abortSession.eng := by
  have task := s.overtakeSummary_task.1
  refine EngineControl.carriesLinks_of_stopped ?_ ?_ ?_ <;> simp [State.abortSession, task]

theorem State.pathFailure_carriesLinks (s : State) (a : Word) : s.eng.carriesLinks (s.pathFailure a).eng :=
  State.pathFailure_keeps (P := fun t => s.eng.carriesLinks t.eng) s.eng.carriesLinks_refl
    (fun _ _ _ => State.fatalFault_carriesLinks s.pathLost _ _)
    fun _ => EngineControl.carriesLinks_of_eq ⟨rfl, rfl, rfl, rfl⟩

theorem State.writerAnswer_carriesLinks (s : State) (w : Word) (a : Answer) :
    s.eng.carriesLinks (s.writerAnswer w a).eng :=
  State.writerAnswer_keeps (P := fun t => s.eng.carriesLinks t.eng) (fun _ => s.eng.carriesLinks_refl)
    (fun _ _ => s.eng.carriesLinks_refl) (fun _ d => EngineControl.carriesLinks_of_eq (by simp))
    fun _ => s.pathFailure_carriesLinks w

theorem State.finishSummary_state_ne_draining (s : State) : s.finishSummary.eng.state ≠ .draining := by
  simp only [State.finishSummary]
  cases state : s.eng.state <;> simp

theorem State.engineAnswer_carriesLinks {s : State} (held : s.timebaseHeld) (a : Answer) :
    s.eng.carriesLinks (s.engineAnswer a).eng := by
  have reading : s.eng.task.isRead = true → s.eng.state = .preparing ∧ ¬ s.eng.letsLinks := fun read =>
    have preparing := (held.2.2.2 read).1
    ⟨preparing, EngineControl.not_letsLinks_of_state (.inr (.inl preparing))⟩
  refine State.engineAnswer_keeps (P := fun t => s.eng.carriesLinks t.eng) (fun _ => ?_) ?_ (fun read e => ?_)
    (fun read d => ?_) (fun read cb su _ => ?_) (fun summary k bytes => ?_) (fun summary b => ?_)
  · exact ⟨fun lets => ⟨lets.1, rfl⟩, fun draining placed => ⟨draining, placed⟩⟩
  · exact EngineControl.carriesLinks_of_eq ⟨rfl, rfl, rfl, rfl⟩
  · exact EngineControl.carriesLinks_of_not (reading read).2 (by simp [State.failPrepare])
  · exact EngineControl.carriesLinks_of_not (reading read).2 (by simp [(reading read).1])
  · exact EngineControl.carriesLinks_of_not (reading read).2 (by simp [State.setUpSession, (reading read).1])
  · exact ⟨fun lets => absurd lets (EngineControl.not_letsLinks_of_summary summary),
      fun draining placed => ⟨draining, placed⟩⟩
  · exact EngineControl.carriesLinks_of_not (EngineControl.not_letsLinks_of_summary summary)
      (State.finishSummary_state_ne_draining _)

theorem State.prepareAbortEnd_state_ne_draining {s : State} (preparing : s.eng.state = .preparing) :
    s.prepareAbortEnd.eng.state ≠ .draining := by
  simp only [State.prepareAbortEnd]
  (repeat' split) <;> simp [State.failPrepare, preparing]

theorem State.afterAnswer_carriesLinks (s : State) : s.eng.carriesLinks s.afterAnswer.eng := by
  unfold State.afterAnswer
  split
  · next h =>
    have preparing : s.eng.state = .preparing := by simp_all
    exact EngineControl.carriesLinks_of_not (EngineControl.not_letsLinks_of_state (.inr (.inl preparing)))
      (State.prepareAbortEnd_state_ne_draining preparing)
  · exact s.eng.carriesLinks_refl

theorem State.answer_carriesLinks {s : State} (held : s.timebaseHeld) (r : Requester) (rq : Request) (a : Answer) :
    s.eng.carriesLinks (s.answer r rq a).eng := by
  cases r <;> refine EngineControl.carriesLinks_trans ?_ (State.afterAnswer_carriesLinks _)
  · exact EngineControl.carriesLinks_of_eq (by simp)
  · exact s.writerAnswer_carriesLinks _ _
  · exact State.engineAnswer_carriesLinks held _

theorem State.present_carriesLinks {s : State} (held : s.timebaseHeld) (r : Requester) (rq : Request) :
    s.eng.carriesLinks (s.present r rq).eng := by
  unfold State.present
  split
  · exact s.eng.carriesLinks_refl
  · exact State.answer_carriesLinks held _ _ _

theorem State.takeAbort_carriesLinks (s : State) : s.eng.carriesLinks s.takeAbort.eng := by
  unfold State.takeAbort
  split
  · next preparing =>
    refine EngineControl.carriesLinks_of_not (EngineControl.not_letsLinks_of_state (.inr (.inl preparing))) ?_
    simp only [State.abortPreparation]
    split <;> exact State.prepareAbortEnd_state_ne_draining preparing
  · exact s.abortSession_carriesLinks

theorem State.beginPrepare_carriesLinks {s : State} (between : s.betweenSessions = true) :
    s.eng.carriesLinks s.beginPrepare.eng := by
  have none : ¬ s.eng.letsLinks := by
    rintro ⟨state, -⟩
    simp only [State.betweenSessions, Bool.or_eq_true, Bool.and_eq_true, beq_iff_eq] at between
    rcases state with h | h | ⟨h, notDown⟩
    · simp [h] at between
    · simp [h] at between
    · rcases between with off | ⟨-, down⟩
      · simp [off] at h
      · simp [down] at notDown
  refine EngineControl.carriesLinks_of_not none ?_
  simp only [State.beginPrepare]
  split <;> simp [State.failPrepare]

theorem State.links_beginPrepare (s : State) : s.beginPrepare.links = s.links := by
  simp only [State.beginPrepare]
  split <;> simp

theorem State.takeTimebaseEnd_carriesLinks (s : State) : s.eng.carriesLinks s.takeTimebaseEnd.eng := by
  unfold State.takeTimebaseEnd
  split
  · exact s.fatalFault_carriesLinks _ _
  · exact s.eng.carriesLinks_refl

/-! ## What takes a delivery, and what brings one -/

theorem State.takeLink_links_subset (s : State) (d : LinkDelivery) : (s.takeLink d).links ⊆ s.links := by
  unfold State.takeLink State.takeFire State.takeLinkRequest
  (repeat' split) <;> first | exact fun _ h => h | simp [List.erase_subset]

theorem State.settleLinks_links_subset (l : List LinkDelivery) (s : State) : (s.settleLinks l).links ⊆ s.links := by
  induction l generalizing s with
  | nil => exact fun _ h => h
  | cons d rest ih => exact fun _ h => s.takeLink_links_subset d (ih _ h)

theorem State.takeEngineReset_links_subset (s : State) : s.takeEngineReset.links ⊆ s.links := by
  unfold State.takeEngineReset
  split
  · exact List.nil_subset _
  · exact fun _ h => h

/-- An arrival brings a delivery only in RUNNING, where the channel counts. -/
theorem State.takeArrival_linksTaken {s : State} (held : s.timebaseHeld) (rests : s.restsOutsideRunning)
    (h : s.linksTaken) (ch : ChanId) (level : Level) : (s.takeArrival ch level).linksTaken := by
  by_cases running : s.eng.state = .running
  · have task : s.eng.task.isSummary = false := (State.task_of_timebaseHeld held).2.1 (.inr (.inl running))
    refine (State.linksTaken_iff _).mpr ⟨fun _ => ?_, fun draining => ?_⟩
    · simp only [State.takeArrival_frame]
      exact ⟨.inl running, task⟩
    · simp [running] at draining
  · have none : ((s.chan ch).arrival ch s.now level).2.1 = [] := by
      rw [Channel.arrival_of_resting (rests running ch)]
    refine State.linksTaken_of_carries h ?_ ?_
    · simp only [State.takeArrival_frame]
      exact s.eng.carriesLinks_refl
    · rw [State.takeArrival_links, none, ite_self, List.append_nil]
      exact fun _ h => h

theorem State.settleArrivals_linksTaken (l : List ChanId) {s : State} (held : s.timebaseHeld)
    (rests : s.restsOutsideRunning) (h : s.linksTaken) : (s.settleArrivals l).linksTaken := by
  induction l generalizing s with
  | nil => exact h
  | cons ch rest ih =>
    refine ih ?_ (State.takeArrival_restsOutsideRunning rests ch _) (State.takeArrival_linksTaken held rests h ch _)
    exact State.timebaseHeld_of_eq held (by simp) (by simp) (by simp) (by simp) (by simp)

theorem State.takeEngineReset_linksTaken {s : State} (h : s.linksTaken) : s.takeEngineReset.linksTaken := by
  unfold State.takeEngineReset
  split
  · exact State.linksTaken_of_none rfl
  · exact h

theorem State.takeTick_linksTaken {s : State} (held : s.timebaseHeld) (rests : s.restsOutsideRunning) (h : s.linksTaken) :
    s.takeTick.linksTaken := by
  have heldReset := State.takeEngineReset_timebaseHeld held
  have restsReset := State.takeEngineReset_restsOutsideRunning rests
  have linksReset := State.takeEngineReset_linksTaken h
  generalize hu : s.takeEngineReset = u at heldReset restsReset linksReset
  have drains := u.settleCalendar_keepsOrDrains (u.cal.length + 12)
  have heldCal := State.timebaseHeld_of_keepsOrDrains heldReset (by simp) drains
  have restsCal := State.settleCalendar_restsOutsideRunning restsReset (u.cal.length + 12)
  have linksCal : (u.settleCalendar (u.cal.length + 12)).linksTaken :=
    State.linksTaken_of_carries linksReset (State.carriesLinks_of_keepsOrDrains drains) (by simp)
  generalize hv : u.settleCalendar (u.cal.length + 12) = v at heldCal restsCal linksCal
  have converter : (((v.takeReady .warming).takeReady .settling).takeConversionEnd).linksTaken :=
    State.linksTaken_of_carries linksCal (EngineControl.carriesLinks_of_eq (by simp)) (by simp)
  have arrived : ((((v.takeReady .warming).takeReady .settling).takeConversionEnd).settleArrivals
      (List.finRange 16)).linksTaken := by
    refine State.settleArrivals_linksTaken _ ?_ ?_ converter
    · exact State.timebaseHeld_of_eq heldCal (by simp) (by simp) (by simp) (by simp) (by simp)
    · exact State.restsOutsideRunning_of_eq restsCal (by simp) (by simp)
  generalize hw : (((v.takeReady .warming).takeReady .settling).takeConversionEnd).settleArrivals (List.finRange 16) = w
    at arrived
  have finished : s.finishTick = (w.settleLinks w.links).takeScan.takeDeadlineExpiry.takeTimebaseEnd := by
    simp only [State.finishTick, hu, hv, hw]
  have settled : s.finishTick.linksTaken := by
    rw [finished]
    refine State.linksTaken_of_carries arrived (EngineControl.carriesLinks_trans ?_ (State.takeTimebaseEnd_carriesLinks _)) ?_
    · exact EngineControl.carriesLinks_of_eq (by simp)
    · simp only [State.takeTimebaseEnd_frame, State.takeDeadlineExpiry_frame, State.takeScan_frame]
      exact w.settleLinks_links_subset w.links
  exact State.linksTaken_of_carries settled (EngineControl.carriesLinks_of_eq (by simp [State.takeTick, State.beginTick]))
    (by simp [State.takeTick, State.beginTick])

/-! ## Every command -/

theorem State.placeEndMarker_linksTaken {s : State} (h : s.linksTaken) : s.takeEndMarkerPlace.linksTaken := by
  unfold State.takeEndMarkerPlace
  split
  · next due =>
    simp only [State.endMarkerOfferDue, Bool.and_eq_true, Bool.not_eq_true', beq_iff_eq, List.any_eq_false,
      Bool.not_eq_true] at due
    obtain ⟨⟨⟨⟨⟨draining, -⟩, -⟩, -⟩, -⟩, noneAsks⟩ := due
    have lets := (s.linksTaken_iff.mp h).1
    unfold State.placeEndMarker
    (repeat' split)
    · exact ⟨lets, fun _ _ => noneAsks⟩
    · exact ⟨lets, fun _ _ => noneAsks⟩
    · exact h
  · exact h

theorem State.takeSummary_linksTaken {s : State} (h : s.linksTaken) : s.takeSummary.linksTaken := by
  unfold State.takeSummary
  split
  · next due =>
    refine State.linksTaken_of_none (List.isEmpty_iff.mp ?_)
    simp only [State.summaryDue, Bool.and_eq_true] at due
    exact due.1.2
  · exact h

section
variable {s u : State} (h : s.linksTaken) (links : u.links = s.links)
include h links

theorem State.startSession_linksTaken (armed : s.eng.state = .armed) (state : u.eng.state = .armed) :
    u.startSession.linksTaken := by
  have same : s.eng.carriesLinks u.eng :=
    EngineControl.carriesLinks_of_not (EngineControl.not_letsLinks_of_state (.inr (.inr armed))) (by simp [state])
  refine State.linksTaken_of_carries h (EngineControl.carriesLinks_trans same (State.startSession_carriesLinks state)) ?_
  simp only [State.startSession_frame, links]
  exact fun _ h => h

variable (held : u.timebaseHeld) (eng : u.eng = s.eng)
include held eng

theorem State.answer_linksTaken (r : Requester) (rq : Request) (a : Answer) : (u.answer r rq a).linksTaken := by
  refine State.linksTaken_of_carries h (eng ▸ State.answer_carriesLinks held r rq a) ?_
  simp only [State.answer_frame, links]
  exact fun _ h => h

theorem State.present_linksTaken (r : Requester) (rq : Request) : (u.present r rq).linksTaken := by
  refine State.linksTaken_of_carries h (eng ▸ State.present_carriesLinks held r rq) ?_
  simp only [State.present_frame, links]
  exact fun _ h => h

end

theorem exec_keeps_linksTaken {c : Instr} {s t : State} (held : s.timebaseHeld) (rests : s.restsOutsideRunning)
    (h : s.linksTaken) (run : exec c s = .next t) : t.linksTaken := by
  have of_carries : ∀ u : State, s.eng.carriesLinks u.eng → u.links = s.links → u.linksTaken := fun u carries links =>
    State.linksTaken_of_carries h carries (by rw [links]; exact fun _ h => h)
  have accepted : ∀ u : State, (s.setResult .accepted).eng.carriesLinks u.eng → u.links = s.links → u.linksTaken :=
    fun u carries => of_carries u (EngineControl.carriesLinks_trans (EngineControl.carriesLinks_of_eq ⟨rfl, rfl, rfl, rfl⟩) carries)
  have expiry := of_carries s.takeExpiry (State.carriesLinks_of_keepsOrDrains s.takeExpiry_keepsOrDrains) (by simp)
  cases c with simp only [exec] at run
  | prepare =>
    exact act_keeps run h (State.command_keeps (fun _ => h) fun between _ =>
      accepted _ (State.beginPrepare_carriesLinks between) (State.links_beginPrepare _))
  | startCommand =>
    exact act_keeps run h (State.command_keeps (fun _ => h) fun allowed _ =>
      accepted _ (State.startSession_carriesLinks (by simpa using allowed)) (by simp))
  | stopCommand =>
    exact act_keeps run h (State.command_keeps (fun _ => h) fun _ _ =>
      accepted _ (by rw [State.takeStop, State.beginDrain_eng]; exact EngineControl.carriesLinks_drained _ _ _) (by simp))
  | abort =>
    exact act_keeps run h (State.command_keeps (fun _ => h) fun _ _ =>
      accepted _ (State.takeAbort_carriesLinks _) (by unfold State.takeAbort; split <;> simp))
  | unknownCommand => exact act_keeps run h (by split <;> exact h)
  | deviceReset =>
    cases run
    exact State.linksTaken_of_none rfl
  | deviceResetEnd =>
    cases run
    exact of_carries _ (EngineControl.carriesLinks_of_eq (by simp)) (by simp)
  | engineReset => exact act_keeps run h (State.takeEngineReset_linksTaken h)
  | startLineEdge level =>
    refine act_keeps run h ?_
    unfold State.sampleStart
    (repeat' split)
    · next armed =>
      have armed : s.eng.state = .armed := by simp_all
      exact State.startSession_linksTaken h (by exact rfl) armed (by exact armed)
    · exact h
    · exact h
  | timebaseTick => exact act_keeps run h (State.takeTick_linksTaken held rests h)
  | timebaseEnd => exact act_keeps run h (of_carries _ s.takeTimebaseEnd_carriesLinks (by simp))
  | tickArrival ch level =>
    exact act_keeps run h (State.takeArrival_linksTaken (by exact held) (by exact rests) (by exact h) ch level)
  | expiry => exact act_keeps run h expiry
  | laneHeadOffer i =>
    exact act_keeps run h (of_carries _ (State.carriesLinks_of_keepsOrDrains (s.offerHead_keepsOrDrains i)) (by simp))
  | set | start | stop | pause | resume | stage | fire | snapshot | powerOn | powerOff | reference | convert | note
  | closePage | endCue => exact act_keeps run h (State.takeCue_keeps h expiry _)
  | fireLinkDelivery source target =>
    refine act_keeps run h (State.linksTaken_of_carries h (EngineControl.carriesLinks_of_eq (by simp)) ?_)
    unfold State.takeFire
    split <;> simp [List.erase_subset]
  | convertLinkRequest source =>
    refine act_keeps run h (State.linksTaken_of_carries h (EngineControl.carriesLinks_of_eq (by simp)) ?_)
    unfold State.takeLinkRequest
    (repeat' split) <;> simp [List.erase_subset]
  | requestPresent r =>
    exact act_keeps run h (State.presentRequest_keeps h
      (fun _ => of_carries _ (EngineControl.carriesLinks_of_eq (by simp)) (by simp))
      (fun _ _ _ _ _ => State.present_linksTaken h (by exact rfl) (by exact held) (by exact rfl) _ _)
      (fun _ _ _ _ _ => State.present_linksTaken h (by exact rfl) (by exact held) (by exact rfl) _ _)
      fun _ _ _ => State.present_linksTaken h rfl held rfl _ _)
  | response =>
    exact act_keeps run h (State.takeResponse_keeps h fun _ _ =>
      State.answer_linksTaken h (by exact rfl) (by exact held) (by exact rfl) _ _ _)
  | timeout =>
    exact act_keeps run h (State.takeTimeout_keeps h fun _ _ =>
      State.answer_linksTaken h (by exact rfl) (by exact held) (by exact rfl) _ _ _)
  | initialFetchComplete =>
    refine act_keeps run h (of_carries _ ?_ (by simp))
    unfold State.takeInitialFetchComplete
    split
    · next done =>
      simp only [State.initialFetchDone, State.initialFetch, Bool.and_eq_true, beq_iff_eq] at done
      obtain ⟨⟨⟨⟨preparing, -⟩, -⟩, -⟩, -⟩ := done
      exact EngineControl.carriesLinks_of_not (EngineControl.not_letsLinks_of_state (.inr (.inl preparing))) (by simp)
    · exact s.eng.carriesLinks_refl
  | endMarkerPlace => exact act_keeps run h (State.placeEndMarker_linksTaken h)
  | endSummaryWrite => exact act_keeps run h (State.takeSummary_linksTaken h)
  | drainLimitExpiry =>
    refine act_keeps run h (of_carries _ (EngineControl.carriesLinks_of_eq ?_) (by simp))
    unfold State.takeDrainLimitExpiry State.takeDrainLimit EngineControl.drainLost
    (repeat' split) <;> simp
  | _ => exact act_keeps run h (of_carries _ (EngineControl.carriesLinks_of_eq
      (by simp [State.writeAlert, State.writeEnable, State.readTimeLo, State.takeAccept, State.eng_setResult]))
      (by simp [State.writeAlert, State.writeEnable, State.readTimeLo, State.takeAccept]))

end Sys2Proof.Machine
end

section
/-! PROOFS. The delivery of a FIRE and of a conversion request, and the deliveries a tick takes (R101, R115, R116, R121). -/

namespace Sys2Proof.Machine

/-! ## One delivery (R101, R115, R121) -/

theorem Channel.trigger_of_extend_eq {c : Channel} {st : Settings} (now : Tick) (settings : c.settings = some st)
    (shape : st.shape = .oneShot) (pulsing : c.mode = .pulsing) (extend : st.retrigger = .extend) :
    (c.trigger now).1 = c.pulseRestart now := by
  simp [Channel.trigger, settings, shape, pulsing, extend]

/-- A trigger does nothing to a channel that is neither ARMED nor PULSING (R88, R101). -/
theorem Channel.trigger_of_not_started {c : Channel} (now : Tick) (notArmed : c.mode ≠ .armed) (notPulsing : c.mode ≠ .pulsing) :
    (c.trigger now).1 = c := by
  unfold Channel.trigger
  simp only [notArmed, notPulsing, and_false, if_false]
  split <;> rfl

section
variable {s : State} {a : ChanId} {d : LinkDelivery} {rest : List LinkDelivery} (links : s.links = d :: rest)
  (source : d.source = a)
include links source

/-- The oldest delivery under way, when it fires this channel, is the one taken. -/
theorem State.takeFire_of_first {b : ChanId} (link : d.link = .fire b) :
    s.takeFire a b = { s with links := rest, chans := s.chans.set b.val ((s.chan b).trigger s.now).1 b.isLt } := by
  have found : s.links.find? (·.firesFrom a b) = some d := by
    rw [links, List.find?_cons_of_pos]
    simp [LinkDelivery.firesFrom, source, link]
  have taken : s.links.erase d = rest := by rw [links, List.erase_cons_head]
  simp only [State.takeFire, found, taken]
  rfl

theorem State.takeLinkRequest_of_first {k : InputId} (link : d.link = .convert k) :
    s.takeLinkRequest a = { s with
      links := rest
      conv := (s.conv.linkRequest { input := k, source := .link a d.kind, tag := d.tag } s.now s.tb.divider).1
      wr := s.wr.offered s.now
        (s.conv.linkRequest { input := k, source := .link a d.kind, tag := d.tag } s.now s.tb.divider).2 } := by
  have found : s.links.find? (·.converts a) = some d := by
    rw [links, List.find?_cons_of_pos]
    simp [LinkDelivery.converts, LinkDelivery.asksConversion, source, link]
  have taken : s.links.erase d = rest := by rw [links, List.erase_cons_head]
  simp only [State.takeLinkRequest, found, link, taken, State.offerAll_eq]
  rfl

end

section
variable {c : Converter} (r : ConvRequest) (now : Tick) (divider : Nat)

theorem Converter.linkRequest_of_closing {cause : ClosingCause} (closing : c.closing = some cause) :
    c.linkRequest r now divider = (c, [dropRecord r cause.drop now]) := by
  simp only [Converter.linkRequest, closing]

theorem Converter.linkRequest_of_off (closing : c.closing = none) (off : c.power = .off) :
    c.linkRequest r now divider = (c, [dropRecord r .converterOff now]) := by
  simp only [Converter.linkRequest, closing, off]

/-- A conversion request to a Converter that has power. -/
theorem Converter.linkRequest_of_on (closing : c.closing = none) (on : c.power ≠ .off) :
    c.linkRequest r now divider = if c.queue.length < 8
      then (Converter.startOldest { c with queue := c.queue ++ [r] } now divider, [])
      else (c, [dropRecord r .queueFull now]) := by
  have room : (c.hasRoom = true) = (c.queue.length < 8) := decide_eq_true_eq
  unfold Converter.linkRequest
  rw [closing]
  dsimp only
  split
  · next off => exact absurd off on
  all_goals simp only [room]

end

/-! ## Every command but the two rows, the tick and the resets leaves the deliveries (R116) -/

theorem exec_keeps_links {c : Instr} {s t : State} (run : exec c s = .next t) (noFire : ∀ a b, c ≠ .fireLinkDelivery a b)
    (noRequest : ∀ a, c ≠ .convertLinkRequest a) (noTick : c ≠ .timebaseTick) (noReset : c ≠ .deviceReset)
    (noEngineReset : c ≠ .engineReset) (noArrival : ∀ ch level, c ≠ .tickArrival ch level) : t.links = s.links := by
  cases c with simp only [exec] at run
  | fireLinkDelivery a b => exact absurd rfl (noFire a b)
  | convertLinkRequest a => exact absurd rfl (noRequest a)
  | timebaseTick => exact absurd rfl noTick
  | deviceReset => exact absurd rfl noReset
  | engineReset => exact absurd rfl noEngineReset
  | tickArrival ch level => exact absurd rfl (noArrival ch level)
  | prepare =>
    exact act_keeps (P := fun t => t.links = s.links) run rfl
      (State.command_keeps (P := fun t => t.links = s.links) (fun _ => rfl) fun _ _ => State.links_beginPrepare _)
  | startCommand =>
    exact act_keeps (P := fun t => t.links = s.links) run rfl
      (State.command_keeps (P := fun t => t.links = s.links) (fun _ => rfl) fun _ _ => by simp)
  | stopCommand =>
    exact act_keeps (P := fun t => t.links = s.links) run rfl
      (State.command_keeps (P := fun t => t.links = s.links) (fun _ => rfl) fun _ _ => by simp)
  | abort =>
    refine act_keeps (P := fun t => t.links = s.links) run rfl
      (State.command_keeps (P := fun t => t.links = s.links) (fun _ => rfl) fun _ _ => ?_)
    unfold State.takeAbort
    split <;> simp
  | unknownCommand =>
    refine act_keeps (P := fun t => t.links = s.links) run rfl ?_
    split <;> rfl
  | deviceResetEnd =>
    cases run
    simp
  | startLineEdge level => exact act_keeps (P := fun t => t.links = s.links) run rfl (by simp)
  | _ =>
    refine act_keeps (P := fun t => t.links = s.links) run rfl ?_
    simp [State.writeAlert, State.writeEnable, State.readTimeLo, State.takeAccept]

/-- A tick arrival only adds deliveries. -/
theorem exec_tickArrival_links {s t : State} {ch : ChanId} {level : Level}
    (run : exec (.tickArrival ch level) s = .next t) : ∃ new, t.links = s.links ++ new := by
  refine act_keeps (P := fun t => ∃ new, t.links = s.links ++ new) run ⟨[], (List.append_nil _).symm⟩ ?_
  exact ⟨_, State.takeArrival_links (s.inputLine ch level) ch level⟩

/-! ## The deliveries that a tick takes (R103; assumption log 3) -/

theorem State.settleArrivals_links (l : List ChanId) (s : State) (named : ∀ d ∈ s.links, d.link ≠ .none) :
    ∀ d ∈ (s.settleArrivals l).links, d.link ≠ .none := by
  induction l generalizing s with
  | nil => exact named
  | cons ch rest ih =>
    refine ih _ fun d hd => ?_
    rw [State.takeArrival_links] at hd
    rcases List.mem_append.mp hd with old | new
    · exact named d old
    · split at new
      · exact Channel.arrival_links _ _ _ _ d new
      · cases new

theorem State.takeTick_links {s : State} (named : ∀ d ∈ s.links, d.link ≠ .none) : s.takeTick.links = [] := by
  have arrived : ∀ u : State, u.links ⊆ s.links → ∀ d ∈ (u.settleArrivals (List.finRange 16)).links, d.link ≠ .none :=
    fun u fewer => State.settleArrivals_links _ u fun d hd => named d (fewer hd)
  have taken : ∀ v : State, (∀ d ∈ v.links, d.link ≠ .none) → (v.settleLinks v.links).links = [] := fun v links =>
    State.settleLinks_links v.links v links links (List.Perm.refl _)
  have fewer : (((s.takeEngineReset.settleCalendar (s.takeEngineReset.cal.length + 12)).takeReady .warming).takeReady
      .settling).takeConversionEnd.links ⊆ s.links := by
    simp only [State.takeConversionEnd_frame, State.takeReady_frame, State.settleCalendar_frame]
    exact s.takeEngineReset_links_subset
  have none := taken _ (arrived _ fewer)
  simpa [State.takeTick, State.beginTick, State.finishTick] using none

/-! ### A tick after an abort or a fault -/

section
variable {s : State} (stopped : s.eng.state = .ended ∨ s.eng.state = .faulted)
include stopped

/-- After the session's stop the Calendar takes nothing. -/
theorem State.settleCalendar_of_stopped (n : Nat) : s.settleCalendar n = s := by
  have noExpiry : s.expiredEntry = none := State.expiredEntry_of_not_running (by rcases stopped with h | h <;> simp [h])
  have takesNone : s.takesCues = false := by
    rcases stopped with h | h <;> simp [State.takesCues, State.initialFetch, h]
  have noOffer : ∀ i, s.offeredHead i = none := fun i => by
    simp only [State.offeredHead, takesNone, Bool.false_and]
    cases (s.lane i).acceptedHead <;> rfl
  have noLead : (List.finRange 4).find? (fun i => s.leads i && (s.headTaken i).isSome) = none := by
    rw [List.find?_eq_none]
    intro i _
    simp [State.leads, noOffer]
  cases n with
  | zero => rfl
  | succ n => simp [State.settleCalendar, noExpiry, noLead]

/-- After the session's stop no channel takes an arrival. -/
theorem State.settleArrivals_of_stopped (l : List ChanId) : s.settleArrivals l = s := by
  have notAlive : s.sessionAlive = false := by rcases stopped with h | h <;> simp [State.sessionAlive, h]
  induction l with
  | nil => rfl
  | cons ch rest ih =>
    have none : s.takeArrival ch s.pins.tin[ch] = s := by
      rw [State.takeArrival, if_neg (by simp [State.arrivalDue, notAlive])]
    rw [State.settleArrivals, none, ih]

theorem State.takeScan_of_stopped : s.takeScan = s := by
  have noScan : s.scans = false := by rcases stopped with h | h <;> simp [State.scans, h]
  rw [State.takeScan, if_neg (by simp [State.scanDue, noScan])]

end

/-- What a tick after the session's stop takes, with the timebase held and the Converter off: the deliveries under way. -/
theorem State.finishTick_of_stopped {s : State} (noReset : s.eng.resetPending = false)
    (stopped : s.eng.state = .ended ∨ s.eng.state = .faulted) (held : s.tb.runs = false) (off : s.conv.power = .off) :
    s.finishTick = s.settleLinks s.links := by
  have reset : s.takeEngineReset = s := if_neg (by simp [State.engineResetDue, noReset])
  have warm : ∀ p, p ≠ .off → s.conv.ends p s.now = false := fun p other => by
    simp [Converter.ends, off, Ne.symm other]
  have ready : ∀ p, p ≠ .off → s.takeReady p = s := fun p other => if_neg (by simp [warm p other])
  have conversion : s.takeConversionEnd = s := if_neg (by simp [warm .converting (by decide)])
  have taken : (s.settleLinks s.links).eng = s.eng := by simp
  have heldAfter : (s.settleLinks s.links).tb = s.tb := by simp
  simp only [State.finishTick, reset, State.settleCalendar_of_stopped stopped, ready .warming (by decide),
    ready .settling (by decide), conversion, State.settleArrivals_of_stopped stopped]
  generalize s.settleLinks s.links = u at *
  rw [State.takeScan_of_stopped (by rw [taken]; exact stopped)]
  have deadline : u.takeDeadlineExpiry = u := if_neg (by simp [State.deadlineReached, heldAfter, held])
  rw [deadline, State.takeTimebaseEnd, if_neg (by simp [State.timebaseEndDue, heldAfter, held])]

/-- Settles O37: each delivery acts once, none is lost on its way, and none is under way between sessions. -/
theorem linksDelivered : Obligations.LinksDelivered := by
  refine ⟨fun s a b d rest free links source link => ?_, fun s a d rest k free links source link => ?_,
    fun c s t run noFire noRequest noTick noReset noEngineReset => ?_, fun s t free named run => ?_,
    fun s d k free noReset stopped held off closing links link => ?_, fun s t held rests h run => ?_⟩
  · have run := exec_fireLinkDelivery a b s free
    rw [State.takeFire_of_first links source link] at run
    have chan : State.chan { s with links := rest, chans := s.chans.set b.val ((s.chan b).trigger s.now).1 b.isLt } b =
        ((s.chan b).trigger s.now).1 := by simp [State.chan]
    refine ⟨_, run, ?_⟩
    rw [chan]
    refine ⟨fun st settings shape armed => ?_, fun st settings shape pulsing => ?_,
      fun notArmed notPulsing => Channel.trigger_of_not_started _ notArmed notPulsing, rfl⟩
    · exact Channel.trigger_of_armed s.now settings shape armed
    · cases again : st.retrigger with
      | extend => simp [Channel.trigger_of_extend_eq s.now settings shape pulsing again, Channel.pulseRestart]
      | ignore => simp [Channel.trigger_of_ignore s.now settings shape pulsing again]
  · intro r
    have run := exec_convertLinkRequest a s free
    rw [State.takeLinkRequest_of_first links source link] at run
    refine ⟨fun closing => ?_, fun closing => ?_, fun closing off => ?_, fun closing on full => ?_,
      fun closing on busy room => ?_, fun closing ready empty positive => ?_⟩
    · rw [run, Converter.linkRequest_of_closing _ _ _ closing]
      rfl
    · rw [run, Converter.linkRequest_of_closing _ _ _ closing]
      rfl
    · rw [run, Converter.linkRequest_of_off _ _ _ closing off]
      rfl
    · rw [run, Converter.linkRequest_of_on _ _ _ closing on, if_neg (by omega)]
      rfl
    · rw [run, Converter.linkRequest_of_on _ _ _ closing on, if_pos room,
        Converter.startOldest_of_not_ready _ _ (by exact busy)]
      rfl
    · have room : s.conv.queue.length < 8 := by simp [empty]
      obtain ⟨least, most⟩ := opTicks_bounds 400 positive
      refine ⟨conversionTicks s.tb.divider, ?_, least, most⟩
      rw [run, Converter.linkRequest_of_on _ _ _ closing (by simp [ready]), if_pos room,
        Converter.startOldest_of_ready (r := r) (requests := []) _ _ (by exact ready) (by simp [empty, r])]
      simp [Writer.offered, empty]
  · by_cases arrival : ∃ ch level, c = .tickArrival ch level
    · obtain ⟨ch, level, rfl⟩ := arrival
      obtain ⟨new, links⟩ := exec_tickArrival_links run
      exact ⟨new, links, fun no => absurd rfl (no ch level)⟩
    · have same := exec_keeps_links run noFire noRequest noTick noReset noEngineReset
        fun ch level yes => arrival ⟨ch, level, yes⟩
      exact ⟨[], by rw [same, List.append_nil], fun _ => rfl⟩
  · rw [exec_timebaseTick s free] at run
    rw [← Host.Outcome.next.inj run]
    exact State.takeTick_links named
  · have finished := State.finishTick_of_stopped noReset stopped held off
    have drop : s.takeLink d = { s with links := [], wr := s.wr.offer s.now (.drop k (.link d.source d.kind) .fault d.tag s.now) } := by
      simp only [State.takeLink, link]
      rw [State.takeLinkRequest_of_first links rfl link, Converter.linkRequest_of_closing _ _ _ closing]
      rfl
    rw [links, State.settleLinks, drop, State.settleLinks] at finished
    refine ⟨_, exec_timebaseTick s free, ?_, ?_⟩
    · rw [State.takeTick, finished]
      rfl
    · rw [State.takeTick, finished]
      rfl
  · unfold step at run
    split at run
    · cases run
      exact h
    · exact exec_keeps_linksTaken (by exact held) (by exact fun other ch => (rests ch).2 other) (by exact h) run

end Sys2Proof.Machine
end

section
/-! PROOFS. The ends of the Converter's operations, the window check and the arbiter (sections 5.3, 8.2, 8.3; R108, R111, R113,
R120, R169 to R171). -/

namespace Sys2Proof.Machine

/-! ## Warm-up, settling and conversion (R108, R111, R113, R120) -/

theorem Converter.ends_of_reached {c : Converter} {p : PowerState} {now : Tick} {n : Nat} (power : c.power = p)
    (tick : c.endTick = some n) (reached : n ≤ now.toNat) : c.ends p now = true := by
  simp [Converter.ends, power, tick, reached]

theorem Converter.ends_of_not_reached {c : Converter} {now : Tick} {n : Nat} (p : PowerState) (tick : c.endTick = some n)
    (before : now.toNat < n) : c.ends p now = false := by
  simp [Converter.ends, tick, before]

theorem Converter.becomeReady_of_empty {c : Converter} (now : Tick) (divider : Nat) (empty : c.queue = []) :
    c.becomeReady now divider = { c with power := .ready, endTick := none } := by
  simp [Converter.becomeReady, Converter.startOldest, empty]

theorem Converter.becomeReady_of_queued {c : Converter} {r : ConvRequest} {rs : List ConvRequest} (now : Tick)
    (divider : Nat) (queue : c.queue = r :: rs) :
    c.becomeReady now divider =
      { c with power := .converting, queue := rs, samples := c.samples + 1
               endTick := some (now.toNat + conversionTicks divider)
               inFlight := some { request := r, start := now, ref := c.current, index := c.samples } } := by
  simp [Converter.becomeReady, Converter.startOldest, queue]

/-- The end of a conversion produces its SAMPLE record, and reports the Converter idle in a drain. -/
theorem State.takeConversionEnd_of_ended {s : State} {v : Conversion} (ended : s.conv.ends .converting s.now = true)
    (flying : s.conv.inFlight = some v) :
    s.takeConversionEnd = { s with
      conv := (s.conv.conversionEnd s.now s.tb.divider).1
      wr := s.wr.offer s.now (sampleRecord v)
      eng := if s.eng.state = .draining ∧ (s.conv.conversionEnd s.now s.tb.divider).1.idle = true
        then { s.eng with converterIdle := true } else s.eng } := by
  have record : (s.conv.conversionEnd s.now s.tb.divider).2 = [sampleRecord v] := by
    simp only [Converter.conversionEnd, flying]
  unfold State.takeConversionEnd
  rw [if_pos ended]
  simp only [record, State.offerAll_eq]
  have condition : (s.eng.state == .draining && (s.conv.conversionEnd s.now s.tb.divider).1.idle) = true ↔
      (s.eng.state = .draining ∧ (s.conv.conversionEnd s.now s.tb.divider).1.idle = true) := by simp
  by_cases drained : s.eng.state = .draining ∧ (s.conv.conversionEnd s.now s.tb.divider).1.idle = true
  · rw [if_pos (condition.mpr drained), if_pos drained]
    rfl
  · rw [if_neg (mt condition.mp drained), if_neg drained]
    rfl

section
variable {c : Converter} {v : Conversion} (now : Tick) (divider : Nat) (flying : c.inFlight = some v)
include flying

theorem Converter.conversionEnd_of_closing (closing : c.closing ≠ none) :
    (c.conversionEnd now divider).1 = Converter.emptied { c with inFlight := none } := by
  simp [Converter.conversionEnd, flying, Option.isSome_iff_ne_none.mpr closing]

theorem Converter.conversionEnd_of_pending {ref : Reference} (closing : c.closing = none)
    (pending : c.pendingRef = some ref) : (c.conversionEnd now divider).1 =
      { c with inFlight := none, current := ref, pendingRef := none, power := .settling
               endTick := some (now.toNat + settlingTicks divider) } := by
  simp [Converter.conversionEnd, flying, closing, pending]

theorem Converter.conversionEnd_of_ready (closing : c.closing = none) (pending : c.pendingRef = none) :
    (c.conversionEnd now divider).1 = Converter.becomeReady { c with inFlight := none } now divider := by
  simp [Converter.conversionEnd, flying, closing, pending]

end

/-- Settles O38: each operation ends at its end tick, and the Converter goes on as its queue and the session have it. -/
theorem timedOperationsEnd : Obligations.TimedOperationsEnd := by
  refine ⟨fun s n free tick => ⟨fun reached empty => ⟨fun warming => ?_, fun settling => ?_⟩,
    fun r rs reached queue positive => ?_, fun before => ⟨?_, ?_, ?_⟩⟩, fun s n v free tick reached positive converting flying => ?_⟩
  · rw [exec_warmUpEnd s free, State.takeReady, if_pos (Converter.ends_of_reached warming tick reached),
      Converter.becomeReady_of_empty _ _ empty]
  · rw [exec_settlingEnd s free, State.takeReady, if_pos (Converter.ends_of_reached settling tick reached),
      Converter.becomeReady_of_empty _ _ empty]
  · obtain ⟨least, most⟩ := opTicks_bounds 400 positive
    refine ⟨conversionTicks s.tb.divider, least, most, fun warming => ?_, fun settling => ?_⟩
    · rw [exec_warmUpEnd s free, State.takeReady, if_pos (Converter.ends_of_reached warming tick reached),
        Converter.becomeReady_of_queued _ _ queue]
    · rw [exec_settlingEnd s free, State.takeReady, if_pos (Converter.ends_of_reached settling tick reached),
        Converter.becomeReady_of_queued _ _ queue]
  · rw [exec_warmUpEnd s free, State.takeReady, if_neg (by simp [Converter.ends_of_not_reached _ tick before])]
  · rw [exec_settlingEnd s free, State.takeReady, if_neg (by simp [Converter.ends_of_not_reached _ tick before])]
  · rw [exec_conversionEnd s free, State.takeConversionEnd, if_neg (by simp [Converter.ends_of_not_reached _ tick before])]
  · have run := exec_conversionEnd s free
    rw [State.takeConversionEnd_of_ended (Converter.ends_of_reached converting tick reached) flying] at run
    refine ⟨_, run, rfl, fun closing pending empty => ?_, fun r rs closing pending queue => ?_, fun ref closing pending => ?_,
      fun closing => ?_, fun closing draining => ?_, fun other => ?_, rfl⟩
    · exact (Converter.conversionEnd_of_ready _ _ flying closing pending).trans
        (Converter.becomeReady_of_empty _ _ (by exact empty))
    · obtain ⟨least, most⟩ := opTicks_bounds 400 positive
      exact ⟨_, (Converter.conversionEnd_of_ready _ _ flying closing pending).trans
        (Converter.becomeReady_of_queued _ _ (by exact queue)), least, most⟩
    · obtain ⟨least, most⟩ := opTicks_bounds 2000 positive
      exact ⟨_, Converter.conversionEnd_of_pending _ _ flying closing pending, least, most⟩
    · dsimp only
      rw [Converter.conversionEnd_of_closing _ _ flying closing]
      exact ⟨rfl, rfl, rfl⟩
    · dsimp only
      rw [Converter.conversionEnd_of_closing _ _ flying closing, if_pos ⟨draining, rfl⟩]
    · exact if_neg fun yes => other yes.1

/-! ## The window check (R169) -/

/-- Of the requests that wait in `q`, those that did not in `p` lie in the window. -/
def Port.waitsWithin (w : Window) (p q : Port) : Prop :=
  ∀ r rq, q.request r = .waiting rq → p.request r = .waiting rq ∨ w.covers rq.addr rq.len

section
variable {w : Window} {p q u : Port}

theorem Port.waitsWithin_refl (w : Window) (p : Port) : p.waitsWithin w p := fun _ _ h => .inl h

theorem Port.waitsWithin_trans (first : p.waitsWithin w q) (second : q.waitsWithin w u) : p.waitsWithin w u :=
  fun r rq h => (second r rq h).elim (first r rq) .inr

theorem Port.waitsWithin_of_eq (same : q = p) : p.waitsWithin w q := same ▸ p.waitsWithin_refl w

/-- Requests that are as they were, or that wait no more. -/
theorem Port.waitsWithin_of_fewer (h : ∀ r, q.request r = p.request r ∨ (q.request r).isWaiting = false) :
    p.waitsWithin w q := by
  intro r rq waits
  rcases h r with same | not
  · exact .inl (same ▸ waits)
  · rw [waits] at not
    cases not

end

theorem PortRequest.withdrawn_eq (x : PortRequest) : x.withdrawn = x ∨ x.withdrawn = .none := by
  cases x
  · exact .inl rfl
  · exact .inr rfl
  · exact .inl rfl

/-- In `q` each request is as in `p`, or none, and the path is held as in `p`: what an answer leaves of the port. -/
def Port.drops (p q : Port) : Prop := q.path = p.path ∧ ∀ r, q.request r = p.request r ∨ q.request r = .none

theorem Port.drops_refl (p : Port) : p.drops p := ⟨rfl, fun _ => .inl rfl⟩

theorem Port.drops_of_eq {p q : Port} (same : q = p) : p.drops q := same ▸ p.drops_refl

theorem Port.drops_trans {p q u : Port} (first : p.drops q) (second : q.drops u) : p.drops u := by
  refine ⟨second.1.trans first.1, fun r => ?_⟩
  rcases second.2 r with same | none
  · rw [same]
    exact first.2 r
  · exact .inr none

theorem Port.waitsWithin_of_drops {p q : Port} (w : Window) (h : p.drops q) : p.waitsWithin w q :=
  Port.waitsWithin_of_fewer fun r => (h.2 r).imp_right fun none => by rw [none]; rfl

theorem State.stopBlocks_drops (s : State) : s.port.drops s.stopBlocks.port := by
  rw [State.stopBlocks_port]
  refine ⟨rfl, fun r => ?_⟩
  cases r with
  | loader => exact s.port.loader.withdrawn_eq
  | writer => exact .inl rfl
  | engine => exact .inl rfl

theorem State.withdrawWriter_drops (s : State) : s.port.drops s.withdrawWriter.port := by
  unfold State.withdrawWriter
  split
  · refine ⟨rfl, fun r => ?_⟩
    cases r with
    | loader => exact .inl rfl
    | writer => exact .inr rfl
    | engine => exact .inl rfl
  · exact Port.drops_refl _

theorem State.writerAbort_drops (s : State) : s.port.drops s.writerAbort.port := by
  unfold State.writerAbort
  split
  · exact Port.drops_refl _
  · exact State.withdrawWriter_drops _

theorem State.fatalFault_drops (s : State) (c : FatalFault) (a : Word) : s.port.drops (s.fatalFault c a).port := by
  have stopped := State.stopBlocks_drops
    ({ s.overtakeSummary with eng := { s.overtakeSummary.eng with
        state := .faulted, windDown := false, faultCode := some c, faultAddr := a } }.raise .fault).holdTimebase
  unfold State.fatalFault
  cases c <;> simpa using stopped

theorem State.pathFailure_drops (s : State) (a : Word) : s.port.drops (s.pathFailure a).port :=
  State.pathFailure_keeps (P := fun t => s.port.drops t.port) (Port.drops_refl _)
    (fun _ _ _ => State.fatalFault_drops s.pathLost _ _) fun _ => Port.drops_refl _

theorem State.writerAnswer_drops (s : State) (a : Word) (x : Answer) : s.port.drops (s.writerAnswer a x).port :=
  State.writerAnswer_keeps (P := fun t => s.port.drops t.port) (fun _ => Port.drops_refl _) (fun _ _ => Port.drops_refl _)
    (fun _ _ => Port.drops_of_eq (by simp)) fun _ => s.pathFailure_drops a

theorem State.engineAnswer_drops (s : State) (x : Answer) : s.port.drops (s.engineAnswer x).port := by
  have refl := Port.drops_refl s.port
  refine State.engineAnswer_keeps (P := fun t => s.port.drops t.port) (fun _ => refl) refl
    (fun _ e => Port.drops_of_eq (by simp)) (fun _ _ => refl) (fun _ cb su _ => ⟨rfl, fun r => .inl ?_⟩)
    (fun _ _ _ => refl) fun _ b => Port.drops_of_eq (by simp)
  cases r <;> rfl

theorem State.answer_drops (s : State) (r : Requester) (rq : Request) (x : Answer) :
    s.port.drops (s.answer r rq x).port := by
  cases r <;> simp only [State.answer, State.afterAnswer_port]
  · exact Port.drops_of_eq (by simp)
  · exact State.writerAnswer_drops _ _ _
  · exact State.engineAnswer_drops _ _

theorem State.abortSession_drops (s : State) : s.port.drops s.abortSession.port := by
  simp only [State.abortSession, State.writerAbortEnd_frame]
  refine Port.drops_trans ?_ (State.stopBlocks_drops _)
  exact Port.drops_trans (Port.drops_of_eq (by simp)) (State.writerAbort_drops _)

theorem State.takeAbort_drops (s : State) : s.port.drops s.takeAbort.port := by
  unfold State.takeAbort
  split
  · unfold State.abortPreparation
    simp only [State.prepareAbortEnd_frame]
    split
    · refine ⟨rfl, fun r => ?_⟩
      cases r with
      | loader => exact s.port.loader.withdrawn_eq
      | writer => exact s.port.writer.withdrawn_eq
      | engine => exact .inl rfl
    · exact Port.drops_refl _
  · exact State.abortSession_drops _

section
variable (w : Window)

theorem State.answer_waitsWithin (s : State) (r : Requester) (rq : Request) (x : Answer) :
    s.port.waitsWithin w (s.answer r rq x).port := Port.waitsWithin_of_drops w (s.answer_drops r rq x)

/-- A request presented waits in the window, or is answered at once. -/
theorem State.present_waitsWithin {s : State} (window : s.port.window = some w) (r : Requester) (rq : Request) :
    s.port.waitsWithin w (s.present r rq).port := by
  obtain ⟨inside, outside⟩ := State.present_eq (s := s) r rq window
  by_cases covered : w.covers rq.addr rq.len
  · rw [inside covered]
    intro r' rq' waits
    by_cases same : r = r'
    · subst same
      have same : rq = rq' := by simpa using waits
      exact .inr (same ▸ covered)
    · rw [Port.request_setRequest_ne _ _ same] at waits
      exact .inl waits
  · rw [outside covered]
    exact State.answer_waitsWithin _ _ _ _ _

theorem State.presentRequest_waitsWithin {s : State} (window : s.port.window = some w) (r : Requester) :
    s.port.waitsWithin w (s.presentRequest r).port := by
  have present : ∀ (u : State) (r' : Requester) (rq : Request), u.port = s.port → s.port.waitsWithin w (u.present r' rq).port :=
    fun u r' rq same => same ▸ State.present_waitsWithin w (by rw [same]; exact window) r' rq
  exact State.presentRequest_keeps (P := fun t => s.port.waitsWithin w t.port) (Port.waitsWithin_refl _ _)
    (fun _ => Port.waitsWithin_of_eq (by simp)) (fun _ _ _ _ _ => present _ _ _ (by exact rfl))
    (fun _ _ _ _ _ => present _ _ _ (by exact rfl)) fun _ _ _ => present _ _ _ rfl

theorem Port.waitsWithin_reset (p : Port) (q : Option Nat) : p.waitsWithin w (Port.reset q) :=
  Port.waitsWithin_of_fewer fun r => .inr (by cases r <;> rfl)

theorem State.takeEngineReset_waitsWithin (s : State) : s.port.waitsWithin w s.takeEngineReset.port := by
  unfold State.takeEngineReset
  split
  · exact Port.waitsWithin_reset _ _ _
  · exact Port.waitsWithin_refl _ _

theorem State.takeTimebaseEnd_waitsWithin (s : State) : s.port.waitsWithin w s.takeTimebaseEnd.port := by
  unfold State.takeTimebaseEnd
  split
  · exact Port.waitsWithin_of_drops w (State.fatalFault_drops _ _ _)
  · exact Port.waitsWithin_refl _ _

theorem State.takeTick_waitsWithin (s : State) : s.port.waitsWithin w s.takeTick.port := by
  have ended : s.port.waitsWithin w s.finishTick.port := by
    unfold State.finishTick
    refine Port.waitsWithin_trans (State.takeEngineReset_waitsWithin w s)
      (Port.waitsWithin_trans (Port.waitsWithin_of_eq ?_) (State.takeTimebaseEnd_waitsWithin w _))
    simp
  exact Port.waitsWithin_trans ended (Port.waitsWithin_of_eq (by simp [State.takeTick, State.beginTick]))

theorem Port.ended_waitsWithin (p : Port) (r : Requester) : p.waitsWithin w (p.ended r) := by
  refine Port.waitsWithin_of_fewer fun r' => ?_
  have requests : (p.ended r).request r' = (p.setRequest r .none).request r' := by cases r' <;> rfl
  rw [requests]
  by_cases same : r = r'
  · subst same
    rw [Port.request_setRequest_same]
    exact .inr rfl
  · exact .inl (Port.request_setRequest_ne _ _ same)

theorem Port.request_grant (p : Port) (r r' : Requester) (rq : Request) (time : Nat) :
    (p.grant r rq time).request r' = (p.setRequest r (.outstanding rq (p.issue r) time)).request r' := by
  have path : ∀ (q : Port) (x : Option Requester) (y : LastServed),
      Port.request { q with path := x, lastServed := y } r' = q.request r' := fun q x y => by cases r' <;> rfl
  rw [Port.grant, path, Port.request_setIssue]

theorem Port.grant_waitsWithin (p : Port) (r : Requester) (rq : Request) (time : Nat) :
    p.waitsWithin w (p.grant r rq time) := by
  refine Port.waitsWithin_of_fewer fun r' => ?_
  rw [Port.request_grant]
  by_cases same : r = r'
  · subst same
    rw [Port.request_setRequest_same]
    exact .inr rfl
  · exact .inl (Port.request_setRequest_ne _ _ same)

theorem State.takeGrant_waitsWithin (s : State) (reading : Nat) : s.port.waitsWithin w (s.takeGrant reading).port := by
  unfold State.takeGrant
  (repeat' split) <;> first | exact Port.grant_waitsWithin w _ _ _ _ | exact Port.waitsWithin_refl _ _

theorem State.beginPrepare_waitsWithin (s : State) : s.port.waitsWithin w s.beginPrepare.port := by
  have requests : ∀ q : Port, (∀ r, q.request r = s.port.request r) → s.port.waitsWithin w q := fun q h =>
    Port.waitsWithin_of_fewer fun r => .inl (h r)
  simp only [State.beginPrepare]
  split <;> exact requests _ fun r => by cases r <;> rfl

theorem State.beginReset_waitsWithin (s : State) : s.port.waitsWithin w s.beginReset.port := by
  unfold State.beginReset
  split
  · exact Port.waitsWithin_refl _ _
  · refine Port.waitsWithin_of_fewer fun r => ?_
    cases r <;>
      exact (PortRequest.withdrawn_eq _).imp_right fun none => (congrArg PortRequest.isWaiting none).trans rfl

theorem exec_waitsWithin {c : Instr} {s t : State} (window : s.port.window = some w) (run : exec c s = .next t) :
    s.port.waitsWithin w t.port := by
  have refl := Port.waitsWithin_refl w s.port
  have same : ∀ u : State, u.port = s.port → s.port.waitsWithin w u.port := fun u => Port.waitsWithin_of_eq
  have answered : ∀ (u : State) (r : Requester) (rq : Request) (x : Answer), u.port = s.port.ended r →
      s.port.waitsWithin w (u.answer r rq x).port := fun u r rq x e =>
    Port.waitsWithin_trans (e ▸ Port.ended_waitsWithin w s.port r) (u.answer_waitsWithin w r rq x)
  have keeps : ∀ f : State → State, act s f = .next t → s.port.waitsWithin w (f s).port → s.port.waitsWithin w t.port :=
    fun f run effect => act_keeps (P := fun t => s.port.waitsWithin w t.port) run refl effect
  have commanded : ∀ (allowed : Bool) (f : State → State), s.port.waitsWithin w (f (s.setResult .accepted)).port →
      s.port.waitsWithin w (s.command allowed f).port := fun allowed f effect =>
    State.command_keeps (P := fun t => s.port.waitsWithin w t.port) (fun _ => refl) fun _ _ => effect
  cases c with simp only [exec] at run
  | prepare => exact keeps _ run (commanded _ _ (State.beginPrepare_waitsWithin w (s.setResult .accepted)))
  | startCommand => exact keeps _ run (commanded _ _ (same _ (by simp)))
  | stopCommand => exact keeps _ run (commanded _ _ (same _ (by simp)))
  | abort => exact keeps _ run (commanded _ _ (Port.waitsWithin_of_drops w (s.setResult .accepted).takeAbort_drops))
  | unknownCommand => exact keeps _ run (by split <;> exact refl)
  | reset => exact keeps _ run (State.beginReset_waitsWithin w (s.setResult .accepted))
  | engineReset => exact keeps _ run (State.takeEngineReset_waitsWithin w _)
  | deviceReset =>
    cases run
    exact Port.waitsWithin_reset _ _ _
  | deviceResetEnd =>
    cases run
    refine Port.waitsWithin_of_fewer fun r => .inl ?_
    unfold State.deviceResetEnd
    split <;> cases r <;> rfl
  | timebaseTick => exact keeps _ run (State.takeTick_waitsWithin w _)
  | timebaseEnd => exact keeps _ run (State.takeTimebaseEnd_waitsWithin w _)
  | requestPresent r => exact keeps _ run (State.presentRequest_waitsWithin w window r)
  | grant reading => exact keeps _ run (State.takeGrant_waitsWithin w s reading)
  | busAccept => exact keeps _ run (Port.waitsWithin_of_fewer fun r => .inl (by cases r <;> rfl))
  | response r issue okay data =>
    exact keeps _ run (State.takeResponse_keeps (P := fun t => s.port.waitsWithin w t.port) refl fun _ _ =>
      answered _ _ _ _ (by exact rfl))
  | timeout r reading =>
    exact keeps _ run (State.takeTimeout_keeps (P := fun t => s.port.waitsWithin w t.port) refl fun _ _ =>
      answered _ _ _ _ (by exact rfl))
  | quietIntervalEnd reading =>
    refine keeps _ run ?_
    unfold State.takeQuietEnd
    (repeat' split) <;> exact refl
  | startLineEdge | tickArrival =>
    exact act_keeps (P := fun t => s.port.waitsWithin w t.port) run refl (same _ (by simp))
  | _ => exact keeps _ run (same _ (by simp [State.writeAlert, State.writeEnable, State.readTimeLo]))

end

/-- Settles O40: no other way than through the window check comes a request to wait. -/
theorem waitingRequestsLieInWindow : Obligations.WaitingRequestsLieInWindow := by
  intro c s t r rq w run waits new window
  exact (exec_waitsWithin w window run r rq waits).resolve_left new

/-! ## The arbiter (R170, R171) -/

theorem State.clockAt_eq (s : State) (n : Nat) : s.clockAt n = max s.pins.refClock n := rfl

/-- A grant to a requester the arbiter has chosen, whose request waits. -/
theorem State.takeGrant_of_choice {s : State} {r : Requester} {rq : Request} (n : Nat) (path : s.port.path = none)
    (quiet : s.port.quiet = none) (noReset : s.eng.resetPending = false)
    (choice : s.port.choice s.wr.queue.length = some r) (waits : s.port.request r = .waiting rq) :
    s.takeGrant n = { s with
      port := s.port.grant r rq (max s.pins.refClock n)
      pins := { s.pins with refClock := max s.pins.refClock n } } := by
  have may : s.mayGrant = true := by simp [State.mayGrant, path, quiet, noReset]
  simp only [State.takeGrant, may, if_true, choice, waits]
  rfl

theorem Port.choice_of_engine {p : Port} (items : Nat) (engine : p.engine.isWaiting = true) :
    p.choice items = some .engine := if_pos engine

/-- The writer is granted when it is busy, when it is the only one, and after the Loader. -/
theorem Port.choice_of_writer {p : Port} {items : Nat} (noEngine : p.engine.isWaiting = false)
    (writer : p.writer.isWaiting = true)
    (first : 24 ≤ items ∨ p.loader.isWaiting = false ∨ p.lastServed = .loader) : p.choice items = some .writer := by
  unfold Port.choice
  rw [if_neg (by simp [noEngine])]
  by_cases busy : 24 ≤ items
  · rw [if_pos (by simp [writer, Config.busyResultQueue, busy])]
  · rw [if_neg (by simp [Config.busyResultQueue, busy])]
    rcases first with first | first | first
    · exact absurd first busy
    · simp [writer, first]
    · cases loader : p.loader.isWaiting <;> simp [writer, first]

theorem Port.choice_of_loader {p : Port} {items : Nat} (noEngine : p.engine.isWaiting = false)
    (loader : p.loader.isWaiting = true)
    (first : p.writer.isWaiting = false ∨ (items < 24 ∧ p.lastServed = .writer)) : p.choice items = some .loader := by
  unfold Port.choice
  rw [if_neg (by simp [noEngine])]
  rcases first with idle | ⟨few, served⟩
  · simp [idle, loader]
  · rw [if_neg (by simp [Config.busyResultQueue, Nat.not_le.mpr few])]
    cases writer : p.writer.isWaiting <;> simp [loader, served]

/-- Settles O41: Engine Control first, then a busy writer, then the one not last served. -/
theorem grantArbitrates : Obligations.GrantArbitrates := by
  refine ⟨fun s n free path quiet noReset => ⟨fun rq engine => ?_, fun rq noEngine writer first => ?_,
    fun rq noEngine loader first => ?_⟩, fun s free => ?_⟩
  · rw [exec_grant n s free, State.takeGrant_of_choice (r := .engine) (rq := rq) n path quiet noReset
      (Port.choice_of_engine _ (by rw [engine]; rfl)) engine]
    rfl
  · rw [exec_grant n s free, State.takeGrant_of_choice (r := .writer) (rq := rq) n path quiet noReset
      (Port.choice_of_writer noEngine (by rw [writer]; rfl) first) writer]
    rfl
  · rw [exec_grant n s free, State.takeGrant_of_choice (r := .loader) (rq := rq) n path quiet noReset
      (Port.choice_of_loader noEngine (by rw [loader]; rfl) first) loader]
    rfl
  · rw [exec_busAccept s free]
    rfl

end Sys2Proof.Machine
end

section
/-! PROOFS. Responses and timeouts (sections 8.3, 8.4; R30, R35, R43, R44, R46, R171 to R173). -/

namespace Sys2Proof.Machine

/-! ## The end of a transaction (R171, R172) -/

theorem Port.ended_request_same (p : Port) (r : Requester) : (p.ended r).request r = .none := by
  have requests : (p.ended r).request r = (p.setRequest r .none).request r := by cases r <;> rfl
  rw [requests, Port.request_setRequest_same]

theorem Port.ended_path (p : Port) (r : Requester) :
    (p.path = some r → (p.ended r).path = none) ∧ (p.path ≠ some r → (p.ended r).path = p.path) :=
  ⟨fun held => if_pos held, fun other => if_neg other⟩

/-- A transaction whose answer a state takes with the port ended: no request is left, and the path is free of it. -/
theorem State.answer_of_ended {s u : State} {r : Requester} (port : u.port = s.port.ended r) (rq : Request) (a : Answer) :
    (u.answer r rq a).port.request r = .none ∧ (s.port.path = some r → (u.answer r rq a).port.path = none) ∧
      (s.port.path ≠ some r → (u.answer r rq a).port.path = s.port.path) := by
  obtain ⟨path, requests⟩ := u.answer_drops r rq a
  obtain ⟨held, other⟩ := s.port.ended_path r
  have none : u.port.request r = .none := by rw [port, Port.ended_request_same]
  rw [path, port]
  exact ⟨(requests r).elim (·.trans none) id, held, other⟩

theorem State.takeResponse_of_unmatched {s : State} {r : Requester} {k : Byte} (ok : Bool) (d : BusData)
    (none : ∀ rq g, s.port.request r ≠ .outstanding rq k g) : s.takeResponse r k ok d = s := by
  unfold State.takeResponse
  split
  · next rq n g quiet outstanding =>
    refine if_neg fun same => none rq g ?_
    rw [outstanding, same]
  · rfl

theorem State.takeTimeout_of_reached {s : State} {r : Requester} {rq : Request} {k : Byte} {g n : Nat}
    (outstanding : s.port.request r = .outstanding rq k g) (reached : g + 4000 ≤ max s.pins.refClock n) :
    s.takeTimeout r n = State.answer
      { s with port := s.port.ended r, pins := { s.pins with refClock := max s.pins.refClock n } } r rq .error := by
  simp only [State.takeTimeout, outstanding]
  exact if_pos reached

theorem State.takeTimeout_of_not_reached {s : State} {r : Requester} {rq : Request} {k : Byte} {g n : Nat}
    (outstanding : s.port.request r = .outstanding rq k g) (before : max s.pins.refClock n < g + 4000) :
    s.takeTimeout r n = s := by
  simp only [State.takeTimeout, outstanding]
  exact if_neg (Nat.not_le.mpr before)

/-! ## A failed access of a lane (R30, R35, R43, R44, R46) -/

/-- The failed access faults its lane (Table 2-4). -/
theorem State.laneAnswer_of_error {s : State} {i : LaneId} {kind : LaneAccessKind} {seg : Word}
    (h : (kind = .cue ∧ (s.lane i).state = .active) ∨
      (kind = .header ∧ ((s.lane i).state = .active ∨ (s.lane i).state = .waiting)) ∨
      (kind = .status ∧ (s.lane i).state ≠ .off ∧ (s.lane i).state ≠ .faulted)) :
    s.laneAnswer { lane := i, kind := kind, segment := seg } .error =
      s.laneFault i (if kind = .status then .writeError else .readError) seg := by
  rcases h with ⟨rfl, active⟩ | ⟨rfl, active | waiting⟩ | ⟨rfl, notOff, notFaulted⟩
  · simp [State.laneAnswer, active, failureCause]
  · simp [State.laneAnswer, active, failureCause]
  · simp [State.laneAnswer, waiting, failureCause]
  · unfold State.laneAnswer
    cases state : (s.lane i).state <;> simp_all [failureCause]

theorem State.loaderWorks_of_takesCues {s : State} (takes : s.takesCues = true) : s.loaderWorks = true := by
  simp [State.loaderWorks, takes]

/-- An ERROR reaches the Loader at work. -/
theorem State.loaderAnswer_of_error {s : State} {acc : LaneAccess} (access : s.loader.access = some acc)
    (works : s.loaderWorks = true) :
    s.loaderAnswer .error = State.laneAnswer { s with loader := { s.loader with access := none } } acc .error := by
  simp only [State.loaderAnswer, access, works]
  (repeat' split) <;> simp_all

/-- What a lane becomes at a fault (R43, R46). -/
theorem Lane.fault_spec (l : Lane) :
    (l.acceptedHead = none → l.fault = { l with state := .faulted, pendingNext := none, reread := .absent }) ∧
    (∀ h c, l.head = some h → h.body = .accepted c → l.cuesRetired ≠ h.seq →
      l.fault = { l with state := .faulted, pendingNext := none, reread := .absent
                         head := some { h with body := .held .cancelled } }) ∧
    (∀ h c, l.head = some h → h.body = .accepted c → l.cuesRetired = h.seq →
      l.fault.head = none ∧ l.fault.cuesRetired = l.cuesRetired + 1) := by
  refine ⟨fun none => ?_, fun h c head body notTurn => ?_, fun h c head body turn => ?_⟩
  · have same : Lane.acceptedHead { l with state := .faulted, pendingNext := .none, reread := .absent } = .none := none
    simp only [Lane.fault, same]
  · have same : Lane.acceptedHead { l with state := .faulted, pendingNext := none, reread := .absent } = some (h, c) := by
      simp [Lane.acceptedHead, head, body]
    simp only [Lane.fault, same, Lane.releaseHeld]
    exact if_neg notTurn
  · have same : Lane.acceptedHead { l with state := .faulted, pendingNext := none, reread := .absent } = some (h, c) := by
      simp [Lane.acceptedHead, head, body]
    have released : l.fault = Lane.countRetired { l with state := .faulted, pendingNext := none, reread := .absent
                                                         head := none } h.trailRef := by
      simp only [Lane.fault, same, Lane.releaseHeld]
      exact if_pos turn
    rw [released]
    exact ⟨rfl, rfl⟩

theorem State.takesCues_of_eng {s u : State} (eng : u.eng = s.eng) (takes : s.takesCues = true) : u.takesCues = true := by
  simp only [State.takesCues, State.initialFetch, eng] at takes ⊢
  exact takes

theorem State.laneFault_lane (s : State) (i : LaneId) (cause : LaneFaultCause) (seg : Word) :
    (s.laneFault i cause seg).lane i = (s.lane i).fault := State.lane_setLane_same _ _ _

/-! ## The obligation -/

/-- Settles O42: a matching response ends its transaction, and a timeout is a response with ERROR. -/
theorem responsesAndTimeouts : Obligations.ResponsesAndTimeouts := by
  refine ⟨fun s r k ok d free quiet => ⟨fun rq g outstanding => ?_, fun unmatched => ?_⟩,
    fun s r rq k g n free outstanding => ⟨fun reached quiet d => ?_, fun reached => ?_, fun before => ?_⟩⟩
  · refine ⟨_, exec_response r k ok d s free, ?_⟩
    rw [State.takeResponse_matched quiet outstanding]
    exact State.answer_of_ended (s := s) rfl _ _
  · rw [exec_response r k ok d s free, State.takeResponse_of_unmatched ok d unmatched]
  · rw [exec_timeout r n s free, State.takeTimeout_of_reached outstanding reached]
    rw [exec_response r k false d _ (by exact free), State.takeResponse_matched (by exact quiet) (by exact outstanding)]
    rfl
  · have run := exec_timeout r n s free
    rw [State.takeTimeout_of_reached outstanding reached] at run
    obtain ⟨none, held, other⟩ := State.answer_of_ended (s := s)
      (u := { s with port := s.port.ended r, pins := { s.pins with refClock := max s.pins.refClock n } }) rfl rq .error
    refine ⟨_, run, none, held, by simp, ?_⟩
    intro i kind seg isLoader access takes failed
    subst isLoader
    have answered : State.answer
        { s with port := s.port.ended .loader, pins := { s.pins with refClock := max s.pins.refClock n } } .loader rq .error =
        State.laneFault { s with
          loader := { s.loader with access := .none }
          port := s.port.ended .loader
          pins := { s.pins with refClock := max s.pins.refClock n } } i
          (if kind = .status then .writeError else .readError) seg := by
      rw [State.answer, State.loaderAnswer_of_error (by exact access) (State.loaderWorks_of_takesCues (by exact takes)),
        State.laneAnswer_of_error (by exact failed)]
      exact State.afterAnswer_of_takesCues (State.takesCues_of_eng (s := s) (by simp) takes)
    rw [answered]
    intro cause
    obtain ⟨faulted, win, wr, cal, chans, conv, eng, tb, -⟩ := State.laneFault_spec { s with
      loader := { s.loader with access := .none }
      port := s.port.ended .loader
      pins := { s.pins with refClock := max s.pins.refClock n } } i cause seg
    obtain ⟨noHead, waiting, released⟩ := (s.lane i).fault_spec
    have lane := State.laneFault_lane { s with
      loader := { s.loader with access := .none }
      port := s.port.ended .loader
      pins := { s.pins with refClock := max s.pins.refClock n } } i cause seg
    refine ⟨faulted, win, wr, fun no => ?_, fun h c head body notTurn => ?_, fun h c head body turn => ?_, cal, chans, conv,
      eng, tb⟩
    · exact lane.trans (noHead no)
    · exact lane.trans (waiting h c head body notTurn)
    · rw [lane]
      exact released h c head body turn
  · rw [exec_timeout r n s free, State.takeTimeout_of_not_reached outstanding before]

end Sys2Proof.Machine
end

section
/-! PROOFS. The writer's own events: a slot taking, the markers at the head of the queue, the page deadline and the drain
limit (sections 6.4, 6.6, 6.7): what the writer decides at rest, once per case, and which answers reach it. -/

namespace Sys2Proof.Machine

/-! ## The closes the writer decides of itself (R135, R140) -/

theorem Writer.decideClose_of_busy {w : Writer} (now : Tick) (busy : w.task ≠ .none) : w.decideClose now = w := by
  unfold Writer.decideClose
  split
  · contradiction
  · rfl

theorem Writer.decideClose_of_fits {w : Writer} {p : Page} {r : Rec} {rest : List Item} (now : Tick)
    (page : w.page = some p) (queue : w.queue = .record r :: rest) (fits : p.nextFree + recLength r ≤ p.size.toNat) :
    w.decideClose now = w := by
  unfold Writer.decideClose
  split
  · simp_all [Page.fits]
  · rfl

theorem Writer.decideClose_of_full {w : Writer} {p : Page} {r : Rec} {rest : List Item} (now : Tick)
    (task : w.task = .none) (opened : w.state = .opened) (page : w.page = some p) (queue : w.queue = .record r :: rest)
    (full : p.size.toNat < p.nextFree + recLength r) : w.decideClose now = w.beginClose .full now none := by
  unfold Writer.decideClose
  simp only [task, opened, page, queue]
  rw [if_neg (by simp [Page.fits, full])]

theorem Writer.decideClose_of_marker {w : Writer} {x : Item} {rest : List Item} (now : Tick)
    (queue : w.queue = x :: rest) (marker : x = .endMarker ∨ ∃ m, x = .closeMarker m) : w.decideClose now = w := by
  unfold Writer.decideClose
  rcases marker with rfl | ⟨m, rfl⟩ <;> simp only [queue] <;> split <;> rfl

/-- With nothing queued after the end marker an open page is closed (R140). -/
theorem Writer.decideClose_of_ended {w : Writer} {p : Page} (now : Tick) (task : w.task = .none)
    (opened : w.state = .opened) (page : w.page = some p) (queue : w.queue = []) (noFlush : w.flushing = false)
    (ended : w.endTaken = true) : w.decideClose now = w.beginClose .sessionEnd now none := by
  unfold Writer.decideClose
  simp [task, opened, page, queue, noFlush, ended]

/-- With nothing queued a page stays open (R140). -/
theorem Writer.decideClose_of_empty {w : Writer} (now : Tick) (queue : w.queue = []) (noFlush : w.flushing = false)
    (goesOn : w.endTaken = false) : w.decideClose now = w := by
  unfold Writer.decideClose
  simp only [queue, noFlush, goesOn]
  split <;> rfl

/-- An OPEN writer settles by a close of its own or not at all. -/
theorem State.writerSettle_of_opened {s : State} (opened : s.wr.state = .opened) :
    s.writerSettle = { s with wr := s.wr.decideClose s.now } := by
  unfold State.writerSettle
  rw [if_neg]
  simp [opened]

/-! ## When the writer works, and what answers it takes -/

theorem State.fillsPages_of_draining {s : State} (draining : s.eng.state = .draining) : s.fillsPages :=
  .inr (.inr (.inl draining))

theorem State.fillsPages_of_eng {s u : State} (eng : u.eng = s.eng) (fills : s.fillsPages) : u.fillsPages := by
  simp only [State.fillsPages, eng] at fills ⊢
  exact fills

/-- An OKAY goes to the writer's task, and a session that goes on has no preparation to abort. -/
theorem State.exec_writerOkay {s t : State} {rq : Request} {k : Byte} {g : Nat} (d : BusData) (free : s.free)
    (quiet : s.port.quiet = none) (fills : s.fillsPages) (outstanding : s.port.writer = .outstanding rq k g)
    (taken : s.eng.resetPending = false ∨ s.wr.task.reads = false)
    (okay : State.writerOkay { s with port := s.port.ended .writer } d = t) (state : t.eng.state = s.eng.state)
    (aborting : t.eng.aborting = s.eng.aborting) : exec (.response .writer k true d) s = .next t := by
  rw [exec_response _ _ _ _ s free, State.takeResponse_matched (r := .writer) quiet outstanding]
  have works : State.writerWorks { s with port := s.port.ended .writer } = true :=
    State.writerWorks_of_fillsPages (State.fillsPages_of_eng (s := s) (by exact rfl) fills)
  have answered : State.writerAnswer { s with port := s.port.ended .writer } rq.addr (.okay d) = t := by
    rw [← okay]
    simp only [State.writerAnswer, works]
    rcases taken with taken | taken <;> simp [taken]
  simp only [State.answer, responseAnswer, if_true, answered]
  rw [State.afterAnswer_of_fillsPages fills state aborting]

/-! ## Slots (R129, R130) -/

theorem slotCheck_badAlign_iff (w : Option Window) (e : SlotEntry) :
    slotCheck w e = some .badAlign ↔ e.address.toNat % 256 ≠ 0 := by
  unfold slotCheck
  (repeat' split) <;> simp_all

theorem slotCheck_badSize_iff (w : Option Window) (e : SlotEntry) :
    slotCheck w e = some .badSize ↔ e.address.toNat % 256 = 0 ∧
      (e.size.toNat < 512 ∨ 65536 < e.size.toNat ∨ e.size.toNat % 256 ≠ 0) := by
  unfold slotCheck
  (repeat' split) <;> simp_all

theorem slotCheck_none_iff (w : Window) (e : SlotEntry) :
    slotCheck (some w) e = none ↔ e.address.toNat % 256 = 0 ∧ 512 ≤ e.size.toNat ∧ e.size.toNat ≤ 65536 ∧
      e.size.toNat % 256 = 0 ∧ w.base.toNat ≤ e.address.toNat ∧ e.address.toNat + e.size.toNat ≤ w.limit.toNat := by
  unfold slotCheck
  split
  · next misaligned => simp [misaligned]
  · next aligned =>
    split
    · next badSize =>
      simp only [reduceCtorEq, false_iff]
      omega
    · next goodSize =>
      have size : 512 ≤ e.size.toNat ∧ e.size.toNat ≤ 65536 ∧ e.size.toNat % 256 = 0 := by omega
      have address : e.address.toNat % 256 = 0 := by omega
      simp [windowHolds, Window.holds, size, address]

/-- Settles O46: a slot taking begins with the table's first read, and a slot's checks are made in their order. -/
theorem slotTakingAndChecks : Obligations.SlotTakingAndChecks := by
  refine ⟨fun s r rest free fills idle task queue => ?_, fun w e =>
    ⟨slotCheck_badAlign_iff _ e, slotCheck_badSize_iff _ e, slotCheck_none_iff w e⟩⟩
  have due : s.slotTakingDue = true := by
    simp [State.slotTakingDue, State.writerWorks_of_fillsPages fills, idle, task, queue]
  rw [exec_slotTaking s free, State.takeSlotTaking, if_pos due]
  exact ⟨_, rfl, rfl, rfl⟩

/-! ## Close markers (R126) -/

theorem State.closeMarkerDue_eq {s : State} {m : CloseMarker} {rest : List Item} (fills : s.fillsPages)
    (task : s.wr.task = .none) (state : s.wr.state = .idle ∨ s.wr.state = .opened)
    (queue : s.wr.queue = .closeMarker m :: rest) : s.closeMarkerDue = some m := by
  unfold State.closeMarkerDue
  rcases state with state | state <;> simp [State.writerWorks_of_fillsPages fills, task, state, queue]

/-- A close marker at an open page closes it. -/
theorem State.reachCloseMarker_of_opened {s : State} {m : CloseMarker} {rest : List Item} {p : Page}
    (queue : s.wr.queue = .closeMarker m :: rest) (opened : s.wr.state = .opened) (page : s.wr.page = some p) :
    s.reachCloseMarker m = { s with wr := Writer.beginClose { s.wr with queue := rest } .cue s.now (some m) } := by
  simp only [State.reachCloseMarker, queue, opened, page, List.tail_cons]
  rfl

/-- With no page open the marker's report is offered, and the writer settles. -/
theorem State.reachCloseMarker_of_idle {s : State} {m : CloseMarker} {rest : List Item}
    (queue : s.wr.queue = .closeMarker m :: rest) (idle : s.wr.state = .idle) :
    s.reachCloseMarker m = State.writerSettle
      { s with wr := Writer.offered { s.wr with queue := rest } s.now (closeReport m .empty) } := by
  simp only [State.reachCloseMarker, queue, idle, List.tail_cons]
  rw [State.offerAll_eq]
  rfl

/-- The report of a close marker joins an idle writer's queue, and the writer goes on. -/
theorem Writer.offered_of_idle {w : Writer} {now : Tick} {r : Rec} (idle : w.state = .idle) (keeps : w.keeps = true)
    (room : w.queue.length < 32) : w.offered now [r] = { w with queue := w.queue ++ [.record r] } := by
  have place : w.hasPlace = true := decide_eq_true room
  simp only [Writer.offered, List.foldl, Writer.offer, keeps, place, Bool.and_self, if_true]
  exact Writer.decideClose_of_idle now idle

/-! ## The end marker (R140) -/

theorem State.endMarkerDue_eq {s : State} {rest : List Item} (fills : s.fillsPages) (task : s.wr.task = .none)
    (state : s.wr.state = .idle ∨ s.wr.state = .opened) (queue : s.wr.queue = .endMarker :: rest) :
    s.endMarkerDue = true := by
  unfold State.endMarkerDue
  rcases state with state | state <;> simp [State.writerWorks_of_fillsPages fills, task, state, queue]

/-- Outside a flush the end marker goes, and is taken. -/
theorem State.takeEndMarker_eq {s : State} {rest : List Item} (fills : s.fillsPages) (task : s.wr.task = .none)
    (state : s.wr.state = .idle ∨ s.wr.state = .opened) (queue : s.wr.queue = .endMarker :: rest)
    (noFlush : s.wr.flushing = false) :
    s.takeEndMarker = State.writerSettle { s with wr := { s.wr with queue := rest, endTaken := true } } := by
  rw [State.takeEndMarker, if_pos (State.endMarkerDue_eq fills task state queue)]
  simp only [State.reachEndMarker, queue, noFlush, List.tail_cons, Bool.not_false]

/-- A writer that is complete is DONE with nothing queued, and its path is complete. -/
theorem State.writerComplete_spec (s : State) :
    s.writerComplete.wr.state = .done ∧ s.writerComplete.wr.queue = [] ∧
      s.writerComplete.eng = { s.eng with pathComplete := true } ∧
      s.writerComplete = { s with wr := s.writerComplete.wr, eng := s.writerComplete.eng } := by
  exact ⟨rfl, rfl, rfl, rfl⟩

/-- Settles O48: a marker at the head of the queue closes an open page, or settles at once without one. -/
theorem markersReached : Obligations.MarkersReached := by
  refine ⟨fun s m rest free fills task queue => ⟨fun p opened page => ?_, fun idle noPage keeps noFlush room => ?_⟩,
    fun s free draining task queue noFlush => ⟨fun p opened page => ?_, fun idle noPage => ?_⟩,
    fun s x rest free draining task queue noFlush => ⟨fun idle => ?_, fun p opened page => ⟨fun fits => ?_, fun r isRec full => ?_⟩⟩⟩
  · rw [exec_closeMarkerReached s free, State.takeCloseMarker, State.closeMarkerDue_eq fills task (.inr opened) queue]
    simp only [State.reachCloseMarker_of_opened queue opened page, Writer.beginClose]
  · have run : exec .closeMarkerReached s = .next (s.reachCloseMarker m) := by
      rw [exec_closeMarkerReached s free, State.takeCloseMarker, State.closeMarkerDue_eq fills task (.inl idle) queue]
    rw [State.reachCloseMarker_of_idle queue idle] at run
    rw [run]
    have joins (r : Rec) (silent : closeReport m .empty = [r]) : State.writerSettle
        { s with wr := Writer.offered { s.wr with queue := rest } s.now (closeReport m .empty) } =
        { s with wr := { s.wr with queue := rest ++ [.record r] } } := by
      have offered : Writer.offered { s.wr with queue := rest } s.now [r] =
          { s.wr with queue := rest ++ [.record r] } := Writer.offered_of_idle (by exact idle) (by exact keeps) room
      rw [silent, offered]
      exact State.writerSettle_of_idle (by exact idle) (.inr (by simp)) (by exact noFlush)
    refine ⟨fun onTime report => ?_, fun onTime silent => ?_, fun late isLate => ?_⟩
    · exact congrArg _ (joins _ (by simp only [closeReport, onTime, report]; rfl))
    · have none : closeReport m .empty = [] := by simp [closeReport, onTime, silent]
      rw [none]
      refine ⟨fun goesOn => ?_, fun ended empty => ?_⟩
      · exact congrArg _ (State.writerSettle_of_idle (s := { s with wr := { s.wr with queue := rest } }) idle goesOn noFlush)
      · refine ⟨_, rfl, ?_⟩
        have settled := State.writerSettle_of_ended (s := { s with wr := { s.wr with queue := rest } }) idle task ended empty
        simp only [Writer.offered, List.foldl]
        rw [settled]
        exact State.writerComplete_spec _
    · exact congrArg _ (joins _ (by simp only [closeReport, isLate]; rfl))
  · rw [exec_endMarkerReached s free,
      State.takeEndMarker_eq (State.fillsPages_of_draining draining) task (.inr opened) queue noFlush,
      State.writerSettle_of_opened (by exact opened),
      Writer.decideClose_of_ended _ (by exact task) (by exact opened) (by exact page) rfl (by exact noFlush) rfl]
    rfl
  · rw [exec_endMarkerReached s free,
      State.takeEndMarker_eq (State.fillsPages_of_draining draining) task (.inl idle) queue noFlush,
      State.writerSettle_of_ended (by exact idle) (by exact task) rfl rfl]
    exact ⟨_, rfl, State.writerComplete_spec _⟩
  · rw [exec_endMarkerReached s free,
      State.takeEndMarker_eq (State.fillsPages_of_draining draining) task (.inl idle) queue noFlush,
      State.writerSettle_of_idle (by exact idle) (.inr (by simp)) (by exact noFlush)]
  · rw [exec_endMarkerReached s free,
      State.takeEndMarker_eq (State.fillsPages_of_draining draining) task (.inr opened) queue noFlush,
      State.writerSettle_of_opened (by exact opened)]
    cases x with
    | record r => rw [Writer.decideClose_of_fits _ (by exact page) rfl (fits r rfl)]
    | closeMarker m => rw [Writer.decideClose_of_marker _ rfl (.inr ⟨m, rfl⟩)]
    | endMarker => rw [Writer.decideClose_of_marker _ rfl (.inl rfl)]
  · subst isRec
    rw [exec_endMarkerReached s free,
      State.takeEndMarker_eq (State.fillsPages_of_draining draining) task (.inr opened) queue noFlush,
      State.writerSettle_of_opened (by exact opened),
      Writer.decideClose_of_full _ (by exact task) (by exact opened) (by exact page) rfl full]
    rfl

/-! ## The page deadline (R136) -/

theorem State.takeDeadlineExpiry_of_not {s : State} (no : s.deadlineReached = false) : s.takeDeadlineExpiry = s := by
  simp [State.takeDeadlineExpiry, no]

/-- The deadline of a page that holds a record is reached by the sum of its first tick and the deadline. -/
theorem State.deadlineReached_iff {s : State} {p : Page} {f : Tick} (runs : s.tb.runs = true) (fills : s.fillsPages)
    (opened : s.wr.state = .opened) (page : s.wr.page = some p) (first : p.firstTick = some f) :
    s.deadlineReached = true ↔
      s.params.deadline.toNat ≠ 0 ∧ f.toNat + s.params.deadline.toNat ≤ s.now.toNat := by
  have nonzero : s.params.deadline != 0 ↔ s.params.deadline.toNat ≠ 0 := by
    rw [bne_iff_ne, ne_eq, ← BitVec.toNat_inj]
    rfl
  simp only [State.deadlineReached, runs, State.writerWorks_of_fillsPages fills, opened, page, first,
    Bool.and_eq_true, nonzero, decide_eq_true_eq]
  simp

/-- With the timebase held, no page, no record in it, or a close already decided, nothing happens. -/
theorem State.takeDeadlineExpiry_of_excluded {s : State}
    (excluded : s.tb.runs = false ∨ s.wr.page = none ∨ (∃ c, s.wr.task = .header c ∨ s.wr.task = .closed c) ∨
      (∃ p, s.wr.page = some p ∧ p.firstTick = none)) : s.takeDeadlineExpiry = s := by
  rcases excluded with held | noPage | ⟨c, header | closed⟩ | ⟨p, page, noRecord⟩
  · exact State.takeDeadlineExpiry_of_not (by simp [State.deadlineReached, held])
  · exact State.takeDeadlineExpiry_of_not (by simp [State.deadlineReached, noPage])
  · simp only [State.takeDeadlineExpiry, State.takeDeadline, header, ite_self]
  · simp only [State.takeDeadlineExpiry, State.takeDeadline, closed, ite_self]
  · exact State.takeDeadlineExpiry_of_not (by simp [State.deadlineReached, page, noRecord])

/-- A record write answered OKAY with a deadline expiry waiting closes the page. -/
theorem State.writerOkay_of_deadlineDue {s : State} {p : Page} {x : Item} {rest : List Item} {n : Nat} (d : BusData)
    (noAbort : s.wr.aborting = false) (page : s.wr.page = some p) (task : s.wr.task = .record n)
    (queue : s.wr.queue = x :: rest) (due : s.wr.deadlineDue = true) :
    s.writerOkay d = { s with wr := { s.wr with
      queue := rest, page := some (p.after n s.now), closeSeq := s.wr.closeSeq + 1, deadlineDue := false,
      task := .header { cause := .deadline, seq := s.wr.closeSeq + 1, time := s.now, lost := s.wr.lost,
                        marker := none } } } := by
  simp only [State.writerOkay, task, State.recordWritten, noAbort, due, page, queue, List.tail_cons, Option.map]
  rfl

/-! ## The drain limit (R134, R158) -/

theorem State.drainLimitDue_iff {s : State} (draining : s.eng.state = .draining) (starved : s.wr.state = .starved)
    (task : s.wr.task = .none) (reread : s.wr.reread = .absent) :
    s.drainLimitDue = true ↔ 16 ≤ s.wr.starveCount := by
  simp only [State.drainLimitDue, draining, starved, task, reread, beq_self_eq_true, Bool.true_and]
  exact decide_eq_true_iff

/-- The stopped writer has lost its queue. -/
theorem Writer.stop_lost {w : Writer} (noFault : w.faultRecord = none) :
    w.stop.lost.toNat = min (2 ^ 32 - 1) (w.lost.toNat + recordCount w.queue) := by
  simp only [Writer.stop, Writer.discardQueue, Writer.lose, noFault, satAdd_satAdd, satAdd_toNat]
  rfl

/-- Settles O49: the page deadline closes a page, and the drain limit ends a starved writer. -/
theorem deadlineAndDrainLimit : Obligations.DeadlineAndDrainLimit := by
  refine ⟨fun s p f free runs state opened page first => ⟨fun nonzero reached => ⟨fun task => ?_, fun n task => ?_⟩,
      fun before => ?_⟩, fun s excluded => ?_,
    fun s p x rest n rq k g d free quiet state noAbort opened page task queue due outstanding => ?_,
    fun s free draining noReset starved task reread => ⟨fun limit => ?_, fun before => ?_⟩,
    fun s free draining reset starved task reread limit => ?_⟩
  · have fills : s.fillsPages := by rcases state with state | state <;> simp [State.fillsPages, state]
    rw [exec_deadlineExpiry s free, State.takeDeadlineExpiry,
      if_pos ((State.deadlineReached_iff runs fills opened page first).mpr ⟨nonzero, reached⟩)]
    simp only [State.takeDeadline, task, Writer.beginClose]
  · have fills : s.fillsPages := by rcases state with state | state <;> simp [State.fillsPages, state]
    rw [exec_deadlineExpiry s free, State.takeDeadlineExpiry,
      if_pos ((State.deadlineReached_iff runs fills opened page first).mpr ⟨nonzero, reached⟩)]
    simp only [State.takeDeadline, task]
  · have fills : s.fillsPages := by rcases state with state | state <;> simp [State.fillsPages, state]
    have no : ¬ s.deadlineReached = true := by
      rw [State.deadlineReached_iff runs fills opened page first]
      omega
    rw [exec_deadlineExpiry s free, State.takeDeadlineExpiry_of_not (by simpa using no)]
  · have kept : s.takeDeadlineExpiry = s := State.takeDeadlineExpiry_of_excluded excluded
    show act s State.takeDeadlineExpiry = .next s
    unfold act
    split
    · rfl
    · rw [kept]
  · have fills : s.fillsPages := by rcases state with state | state | state <;> simp [State.fillsPages, state]
    refine ⟨_, State.exec_writerOkay d free quiet fills outstanding (.inr (by simp [task, WriterTask.reads]))
      (State.writerOkay_of_deadlineDue d (by exact noAbort) (by exact page) (by exact task) (by exact queue)
        (by exact due)) rfl rfl, rfl, rfl, rfl⟩
  · rw [exec_drainLimitExpiry s free, State.takeDrainLimitExpiry,
      if_pos ((State.drainLimitDue_iff draining starved task reread).mpr limit)]
    refine ⟨_, rfl, rfl, rfl, rfl, fun noFault => Writer.stop_lost noFault, ?_, rfl⟩
    simp [State.takeDrainLimit, EngineControl.drainLost, noReset]
  · have no : ¬ s.drainLimitDue = true := by
      rw [State.drainLimitDue_iff draining starved task reread]
      omega
    rw [exec_drainLimitExpiry s free, State.takeDrainLimitExpiry, if_neg no]
  · rw [exec_drainLimitExpiry s free, State.takeDrainLimitExpiry,
      if_pos ((State.drainLimitDue_iff draining starved task reread).mpr limit)]
    refine ⟨_, rfl, rfl, rfl, ?_⟩
    simp [State.takeDrainLimit, EngineControl.drainLost, reset]

end Sys2Proof.Machine
end

section
/-! PROOFS. The control block's checks in the order of Table 7-4 (O51): each check as a condition on the block's fields,
the error of the first that fails, and the session that passing checks set up. -/

namespace Sys2Proof.Machine

/-! ## The checks as conditions on fields -/

theorem halfAt_eq_one_iff (cb : BitVec 1024) (off : Nat) : halfAt cb off = 1 ↔ (halfAt cb off).toNat = 1 := by
  rw [← BitVec.toNat_inj]
  rfl

theorem wordAt_eq_zero_iff (cb : BitVec 1024) (off : Nat) : wordAt cb off = 0 ↔ (wordAt cb off).toNat = 0 := by
  rw [← BitVec.toNat_inj]
  rfl

theorem windowGood_iff (w : Window) (cba : Word) :
    windowGood w cba = true ↔ w.base.toNat % 4096 = 0 ∧ w.limit.toNat % 4096 = 0 ∧ w.base.toNat < w.limit.toNat ∧
      w.base.toNat ≤ cba.toNat ∧ cba.toNat + 512 ≤ w.limit.toNat := by
  simp [windowGood, Window.holds, and_assoc]

theorem laneDescriptorGood_iff (w : Window) (d : Word × Word) :
    laneDescriptorGood w d = true ↔ d.1.toNat = 0 ∨
      (d.1.toNat = 1 ∧ d.2.toNat % 2048 = 0 ∧ w.base.toNat ≤ d.2.toNat ∧ d.2.toNat + 2048 ≤ w.limit.toNat) := by
  have zero : d.1 = 0 ↔ d.1.toNat = 0 := by rw [← BitVec.toNat_inj]; rfl
  have one : d.1 = 1 ↔ d.1.toNat = 1 := by rw [← BitVec.toNat_inj]; rfl
  simp only [laneDescriptorGood, Window.holds, Bool.or_eq_true, Bool.and_eq_true, beq_iff_eq, decide_eq_true_eq, zero,
    one, and_assoc]

/-- A start source is listed by its number. -/
theorem startSourceOf_cases (b : Byte) :
    (b.toNat = 0 ∧ startSourceOf b = some .command) ∨ (b.toNat = 1 ∧ startSourceOf b = some .lineRise) ∨
      (b.toNat = 2 ∧ startSourceOf b = some .lineFall) ∨ (2 < b.toNat ∧ startSourceOf b = none) := by
  unfold startSourceOf
  split
  · next zero => exact .inl ⟨zero, rfl⟩
  · next one => exact .inr (.inl ⟨one, rfl⟩)
  · next two => exact .inr (.inr (.inl ⟨two, rfl⟩))
  · next notZero notOne notTwo =>
    have listed : b.toNat ≠ 0 ∧ b.toNat ≠ 1 ∧ b.toNat ≠ 2 := ⟨notZero, notOne, notTwo⟩
    exact .inr (.inr (.inr ⟨by omega, rfl⟩))

/-! ## The conditions of Table 7-4 -/

def formatPasses (cb : BitVec 1024) : Prop := (halfAt cb 0x00).toNat = 1

def windowFits (cba : Word) (cb : BitVec 1024) : Prop :=
  (wordAt cb 0x20).toNat % 4096 = 0 ∧ (wordAt cb 0x24).toNat % 4096 = 0 ∧
    (wordAt cb 0x20).toNat < (wordAt cb 0x24).toNat ∧ (wordAt cb 0x20).toNat ≤ cba.toNat ∧
    cba.toNat + 512 ≤ (wordAt cb 0x24).toNat

def dividerPasses (cb : BitVec 1024) : Prop := 1 ≤ (halfAt cb 0x02).toNat ∧ (halfAt cb 0x02).toNat ≤ 1024

def horizonPasses (cb : BitVec 1024) : Prop := (wordAt cb 0x10).toNat ≠ 0

def scanPasses (cb : BitVec 1024) : Prop := 1 ≤ (wordAt cb 0x14).toNat ∧ (wordAt cb 0x14).toNat ≤ 16777215

def sourcePasses (cb : BitVec 1024) : Prop := (byteAt cb 0x04).toNat ≤ 2

def lanesPass (cb : BitVec 1024) : Prop :=
  ∀ i, i < 4 → (wordAt cb (0x40 + 16 * i)).toNat = 0 ∨ ((wordAt cb (0x40 + 16 * i)).toNat = 1 ∧
    (wordAt cb (0x44 + 16 * i)).toNat % 2048 = 0 ∧ (wordAt cb 0x20).toNat ≤ (wordAt cb (0x44 + 16 * i)).toNat ∧
    (wordAt cb (0x44 + 16 * i)).toNat + 2048 ≤ (wordAt cb 0x24).toNat)

theorem lanesPass_iff (cb : BitVec 1024) :
    ((List.finRange 4).all fun i => laneDescriptorGood (controlWindow cb) (laneDescriptor cb i)) = true ↔ lanesPass cb := by
  simp only [List.all_eq_true, List.mem_finRange, true_implies, laneDescriptorGood_iff]
  exact ⟨fun good i small => good ⟨i, small⟩, fun pass i => pass i.val i.isLt⟩

/-! ## The first check that fails, and the session of a block that passes -/

section
variable {cba : Word} {cb : BitVec 1024}

theorem prepareChecks_of_format (no : ¬ formatPasses cb) : prepareChecks cba cb = .error .badFormat := by
  have bad : halfAt cb 0x00 ≠ 1 := fun one => no ((halfAt_eq_one_iff cb _).mp one)
  simp only [prepareChecks]
  rw [if_pos bad]

variable (format : formatPasses cb)
include format

theorem prepareChecks_of_window (no : ¬ windowFits cba cb) : prepareChecks cba cb = .error .badWindow := by
  have good : ¬ halfAt cb 0x00 ≠ 1 := fun bad => bad ((halfAt_eq_one_iff cb _).mpr format)
  have bad : (!windowGood (controlWindow cb) cba) = true := by
    simp only [Bool.not_eq_true', Bool.eq_false_iff]
    exact fun fits => no ((windowGood_iff _ _).mp fits)
  simp only [prepareChecks]
  rw [if_neg good, if_pos bad]

variable (window : windowFits cba cb)
include window

/-- The checks that follow those of format and window. -/
theorem prepareChecks_of_inWindow : prepareChecks cba cb =
    if (halfAt cb 0x02).toNat < 1 ∨ 1024 < (halfAt cb 0x02).toNat then .error .badDivider
    else if wordAt cb 0x10 = 0 then .error .badHorizon
    else if wordAt cb 0x14 = 0 ∨ 16777215 < (wordAt cb 0x14).toNat then .error .badScan
    else
      match startSourceOf (byteAt cb 0x04) with
      | none => .error .badStartSource
      | some src =>
        if (List.finRange 4).all (fun i => laneDescriptorGood (controlWindow cb) (laneDescriptor cb i)) then
          .ok { window := controlWindow cb, divider := (halfAt cb 0x02).toNat, startTime := tickAt cb 0x08
                restLevels := halfAt cb 0x1C
                params := { horizon := wordAt cb 0x10, scanPeriod := wordAt cb 0x14, deadline := wordAt cb 0x18
                            startSource := src },
                lanes := Vector.ofFn fun i : LaneId => ((laneDescriptor cb i).1 == 1, (laneDescriptor cb i).2) }
        else .error .badLane := by
  have good : ¬ halfAt cb 0x00 ≠ 1 := fun bad => bad ((halfAt_eq_one_iff cb _).mpr format)
  have fits : ¬ (!windowGood (controlWindow cb) cba) = true := by
    simp only [Bool.not_eq_true', Bool.eq_false_iff, not_not]
    exact (windowGood_iff _ _).mpr window
  simp only [prepareChecks]
  rw [if_neg good, if_neg fits] <;> rfl

theorem prepareChecks_of_divider (no : ¬ dividerPasses cb) : prepareChecks cba cb = .error .badDivider := by
  rw [prepareChecks_of_inWindow format window, if_pos (by simp only [dividerPasses] at no; omega)]

variable (divider : dividerPasses cb)
include divider

theorem prepareChecks_of_horizon (no : ¬ horizonPasses cb) : prepareChecks cba cb = .error .badHorizon := by
  simp only [dividerPasses] at divider
  rw [prepareChecks_of_inWindow format window, if_neg (by omega),
    if_pos ((wordAt_eq_zero_iff cb _).mpr (not_not.mp no))]

variable (horizon : horizonPasses cb)
include horizon

theorem prepareChecks_of_scan (no : ¬ scanPasses cb) : prepareChecks cba cb = .error .badScan := by
  simp only [dividerPasses] at divider
  have bad : wordAt cb 0x14 = 0 ∨ 16777215 < (wordAt cb 0x14).toNat := by
    rw [wordAt_eq_zero_iff]
    simp only [scanPasses] at no
    omega
  rw [prepareChecks_of_inWindow format window, if_neg (by omega), if_neg (fun zero => horizon ((wordAt_eq_zero_iff cb _).mp zero)),
    if_pos bad]

variable (scan : scanPasses cb)
include scan

/-- The last two checks: the start source and the lanes. -/
theorem prepareChecks_of_scanned : prepareChecks cba cb =
    match startSourceOf (byteAt cb 0x04) with
    | none => .error .badStartSource
    | some src =>
      if (List.finRange 4).all (fun i => laneDescriptorGood (controlWindow cb) (laneDescriptor cb i)) then
        .ok { window := controlWindow cb, divider := (halfAt cb 0x02).toNat, startTime := tickAt cb 0x08
              restLevels := halfAt cb 0x1C
              params := { horizon := wordAt cb 0x10, scanPeriod := wordAt cb 0x14, deadline := wordAt cb 0x18
                          startSource := src },
              lanes := Vector.ofFn fun i : LaneId => ((laneDescriptor cb i).1 == 1, (laneDescriptor cb i).2) }
      else .error .badLane := by
  simp only [dividerPasses] at divider
  have good : ¬ (wordAt cb 0x14 = 0 ∨ 16777215 < (wordAt cb 0x14).toNat) := by
    rw [wordAt_eq_zero_iff]
    simp only [scanPasses] at scan
    omega
  rw [prepareChecks_of_inWindow format window, if_neg (by omega), if_neg (fun zero => horizon ((wordAt_eq_zero_iff cb _).mp zero)),
    if_neg good]

theorem prepareChecks_of_source (no : ¬ sourcePasses cb) : prepareChecks cba cb = .error .badStartSource := by
  simp only [sourcePasses] at no
  rw [prepareChecks_of_scanned format window divider horizon scan]
  rcases startSourceOf_cases (byteAt cb 0x04) with ⟨n, -⟩ | ⟨n, -⟩ | ⟨n, -⟩ | ⟨-, none⟩
  · omega
  · omega
  · omega
  · rw [none]

variable (source : sourcePasses cb)
include source

theorem prepareChecks_of_lanes (no : ¬ lanesPass cb) : prepareChecks cba cb = .error .badLane := by
  simp only [sourcePasses] at source
  have bad := fun good => no ((lanesPass_iff cb).mp good)
  rw [prepareChecks_of_scanned format window divider horizon scan]
  rcases startSourceOf_cases (byteAt cb 0x04) with ⟨-, src⟩ | ⟨-, src⟩ | ⟨-, src⟩ | ⟨n, -⟩
  · simp only [src]; exact if_neg bad
  · simp only [src]; exact if_neg bad
  · simp only [src]; exact if_neg bad
  · omega

theorem prepareChecks_of_passed (lanes : lanesPass cb) : ∃ src, startSourceOf (byteAt cb 0x04) = some src ∧
    prepareChecks cba cb = .ok
      { window := controlWindow cb, divider := (halfAt cb 0x02).toNat, startTime := tickAt cb 0x08
        restLevels := halfAt cb 0x1C
        params := { horizon := wordAt cb 0x10, scanPeriod := wordAt cb 0x14, deadline := wordAt cb 0x18
                    startSource := src },
        lanes := Vector.ofFn fun i : LaneId => ((laneDescriptor cb i).1 == 1, (laneDescriptor cb i).2) } := by
  simp only [sourcePasses] at source
  have good := (lanesPass_iff cb).mpr lanes
  rw [prepareChecks_of_scanned format window divider horizon scan]
  rcases startSourceOf_cases (byteAt cb 0x04) with ⟨-, src⟩ | ⟨-, src⟩ | ⟨-, src⟩ | ⟨n, -⟩
  · simp only [src]; exact ⟨_, rfl, if_pos good⟩
  · simp only [src]; exact ⟨_, rfl, if_pos good⟩
  · simp only [src]; exact ⟨_, rfl, if_pos good⟩
  · omega

end

theorem startSourceOf_iff {b : Byte} {src : StartSource} (h : startSourceOf b = some src) :
    (src = .command ↔ b.toNat = 0) ∧ (src = .lineRise ↔ b.toNat = 1) ∧ (src = .lineFall ↔ b.toNat = 2) := by
  rcases startSourceOf_cases b with ⟨n, eq⟩ | ⟨n, eq⟩ | ⟨n, eq⟩ | ⟨n, eq⟩ <;> simp_all
  all_goals (subst h; simp)

/-- Settles O51: the checks run in order, and a block that passes them sets up the session of its fields. -/
theorem prepareChecksInOrder : Obligations.PrepareChecksInOrder := by
  intro cba cb
  show (_ ↔ ¬ formatPasses cb) ∧ (_ ↔ formatPasses cb ∧ ¬ windowFits cba cb) ∧
    (_ ↔ formatPasses cb ∧ windowFits cba cb ∧ ¬ dividerPasses cb) ∧
    (_ ↔ formatPasses cb ∧ windowFits cba cb ∧ dividerPasses cb ∧ ¬ horizonPasses cb) ∧
    (_ ↔ formatPasses cb ∧ windowFits cba cb ∧ dividerPasses cb ∧ horizonPasses cb ∧ ¬ scanPasses cb) ∧
    (_ ↔ formatPasses cb ∧ windowFits cba cb ∧ dividerPasses cb ∧ horizonPasses cb ∧ scanPasses cb ∧
      ¬ sourcePasses cb) ∧
    (_ ↔ formatPasses cb ∧ windowFits cba cb ∧ dividerPasses cb ∧ horizonPasses cb ∧ scanPasses cb ∧
      sourcePasses cb ∧ ¬ lanesPass cb) ∧
    (_ ↔ formatPasses cb ∧ windowFits cba cb ∧ dividerPasses cb ∧ horizonPasses cb ∧ scanPasses cb ∧
      sourcePasses cb ∧ lanesPass cb) ∧ _
  by_cases format : formatPasses cb
  case neg => simp [prepareChecks_of_format format, format]
  by_cases window : windowFits cba cb
  case neg => simp [prepareChecks_of_window format window, format, window]
  by_cases divider : dividerPasses cb
  case neg => simp [prepareChecks_of_divider format window divider, format, window, divider]
  by_cases horizon : horizonPasses cb
  case neg => simp [prepareChecks_of_horizon format window divider horizon, format, window, divider, horizon]
  by_cases scan : scanPasses cb
  case neg => simp [prepareChecks_of_scan format window divider horizon scan, format, window, divider, horizon, scan]
  by_cases source : sourcePasses cb
  case neg =>
    simp [prepareChecks_of_source format window divider horizon scan source, format, window, divider, horizon, scan,
      source]
  by_cases lanes : lanesPass cb
  case neg =>
    simp [prepareChecks_of_lanes format window divider horizon scan source lanes, format, window, divider, horizon, scan,
      source, lanes]
  obtain ⟨src, isSource, passed⟩ := prepareChecks_of_passed format window divider horizon scan source lanes
  simp only [passed, format, window, divider, horizon, scan, source, lanes]
  simp only [reduceCtorEq, not_true_eq_false, and_false, Except.ok.injEq, exists_eq', true_and, and_self]
  rintro su rfl
  obtain ⟨command, rise, fall⟩ := startSourceOf_iff isSource
  refine ⟨rfl, rfl, rfl, rfl, rfl, rfl, rfl, command, rise, fall, rfl, fun i => ?_⟩
  simp only [Fin.getElem_fin, Vector.getElem_ofFn, beq_iff_eq]
  refine ⟨?_, rfl⟩
  rw [← BitVec.toNat_inj]
  exact Iff.rfl

end Sys2Proof.Machine
end

section
/-! PROOFS. The end of the initial fetch and the first steps of a drain (O52): which lanes let the fetch be complete, when
the Loader has nothing left to do, and where the end marker goes. -/

namespace Sys2Proof.Machine

/-! ## The initial fetch (R40, R152) -/

/-- A read of the lane is outstanding at the port. -/
def State.readsFor (s : State) (i : LaneId) : Prop :=
  s.port.loader.isOutstanding = true ∧ ∃ a, s.loader.access = some a ∧ a.lane = i ∧ a.kind ≠ .status

theorem State.laneFetched_iff (s : State) (i : LaneId) :
    s.laneFetched i = true ↔ (s.lane i).state = .off ∨
      (((s.lane i).state = .waiting ∨ (s.lane i).state = .blocked ∨ (s.lane i).state = .ended ∨
        (s.lane i).state = .faulted) ∧ ¬ s.readsFor i) := by
  unfold State.laneFetched State.readsFor
  cases s.loader.access with
  | none => cases (s.lane i).state <;> simp
  | some a =>
    have reads : (a.lane == i && a.kind != .status && s.port.loader.isOutstanding) = true ↔
        s.port.loader.isOutstanding = true ∧ a.lane = i ∧ a.kind ≠ .status := by
      simp only [Bool.and_eq_true, beq_iff_eq, bne_iff_ne]
      tauto
    simp only [Option.some.injEq, exists_eq_left', ← reads]
    generalize (a.lane == i && a.kind != .status && s.port.loader.isOutstanding) = reading
    cases (s.lane i).state <;> simp

theorem State.laneHolds_iff (s : State) (i : LaneId) :
    s.laneHolds i = true ↔ (s.lane i).head ≠ none ∧ (s.offeredHead i = none ∨ 48 ≤ s.cal.length) := by
  have full : s.freeEntries = 0 ↔ 48 ≤ s.cal.length := Nat.sub_eq_zero_iff_le
  simp only [State.laneHolds, Bool.and_eq_true, Bool.or_eq_true, Option.isSome_iff_ne_none, Option.isNone_iff_eq_none,
    beq_iff_eq, full]

theorem State.initialFetchDone_iff {s : State} (preparing : s.eng.state = .preparing) (checked : s.eng.checked = true)
    (noAbort : s.eng.aborting = false) (noReset : s.eng.resetPending = false) :
    s.initialFetchDone = true ↔ ∀ i, s.laneFetched i = true ∨ s.laneHolds i = true := by
  simp [State.initialFetchDone, State.initialFetch, preparing, checked, noAbort, noReset]

/-! ## The Loader in a drain (R48) -/

/-- A lane that runs no more, with no segment to report, has no access pending. -/
theorem Lane.pendingAccess_of_stopped {l : Lane} (draining : Bool) (incomplete : l.oldestComplete = false)
    (stopped : l.state = .stopped ∨ l.state = .off ∨ l.state = .faulted ∨ l.state = .ended) :
    l.pendingAccess draining = none := by
  rcases stopped with state | state | state | state <;> simp [Lane.pendingAccess, incomplete, state]

theorem State.chosenAccess_of_none {s : State}
    (none : ∀ i, (s.lane i).pendingAccess (s.eng.state == .draining) = .none) : s.chosenAccess = .none := by
  simp [State.chosenAccess, rotation, none]

/-! ## The end marker (R158) -/

theorem State.endMarkerOfferDue_iff {s : State} (draining : s.eng.state = .draining)
    (noReset : s.eng.resetPending = false) (idle : s.eng.converterIdle = true) (quiet : s.eng.loaderQuiet = true)
    (notPlaced : s.eng.markerPlaced = false) :
    s.endMarkerOfferDue = true ↔ ∀ d ∈ s.links, d.asksConversion = false := by
  simp [State.endMarkerOfferDue, draining, noReset, idle, quiet, notPlaced]

/-- Settles O52: when the initial fetch is complete, when the Loader is quiet, and where the end marker goes. -/
theorem initialFetchAndDrainSteps : Obligations.InitialFetchAndDrainSteps := by
  refine ⟨fun s free preparing checked noAbort noReset => ?_,
    fun s free draining noReset noAccess noRequest stopped => ?_,
    fun s free draining noReset idle quiet notPlaced => ⟨?_, fun none => ⟨fun going room => ?_, fun going full => ?_,
      fun done => ?_⟩⟩⟩
  · intro reading fetched
    have done : s.initialFetchDone = true ↔ ∀ i, fetched i := by
      rw [State.initialFetchDone_iff preparing checked noAbort noReset]
      refine forall_congr' fun i => ?_
      rw [State.laneFetched_iff, State.laneHolds_iff, or_assoc]
      exact Iff.rfl
    rw [exec_initialFetchComplete s free, State.takeInitialFetchComplete]
    refine ⟨fun all => ?_, fun ⟨i, not⟩ => ?_⟩
    · rw [if_pos (done.mpr all)]
    · rw [if_neg fun all => not (done.mp all i)]
  · have chosen : s.chosenAccess = none :=
      State.chosenAccess_of_none fun i => Lane.pendingAccess_of_stopped _ (stopped i).1 (stopped i).2
    have due : (s.quietDue && !s.eng.resetPending) = true := by
      simp [State.quietDue, draining, noReset, noAccess, noRequest, chosen, PortRequest.isNone]
    rw [exec_loaderQuiet s free, State.takeLoaderQuiet, if_pos due]
  · rintro ⟨d, mem, asks⟩
    have notDue : ¬ s.endMarkerOfferDue = true := by
      rw [State.endMarkerOfferDue_iff draining noReset idle quiet notPlaced]
      intro all
      simp [all d mem] at asks
    rw [exec_endMarkerPlace s free, State.takeEndMarkerPlace, if_neg notDue]
  all_goals
    rw [exec_endMarkerPlace s free, State.takeEndMarkerPlace,
      if_pos ((State.endMarkerOfferDue_iff draining noReset idle quiet notPlaced).mpr none), State.placeEndMarker]
  · have place : s.wr.hasPlace = true := decide_eq_true room
    rw [if_neg going, if_pos place]
  · have noPlace : ¬ s.wr.hasPlace = true := fun place => absurd (of_decide_eq_true place) (by simp [full, Config.resultPlaces])
    rw [if_neg going, if_neg noPlace]
  · rw [if_pos done]

end Sys2Proof.Machine
end

section
/-! PROOFS. The control block's reads answered (O50): what each answer makes of the preparation, and the blocks a session
is set up with. -/

namespace Sys2Proof.Machine

/-! ## Answers that reach Engine Control (R172) -/

/-- A response goes to Engine Control's task, the transaction ended. -/
theorem State.exec_engineAnswer {s t : State} {rq : Request} {k : Byte} {g : Nat} (ok : Bool) (d : BusData)
    (free : s.free) (quiet : s.port.quiet = none) (outstanding : s.port.engine = .outstanding rq k g)
    (answered : State.engineAnswer { s with port := s.port.ended .engine } (responseAnswer ok d) = t)
    (goesOn : t.eng.state ≠ .preparing ∨ t.eng.aborting = false) : exec (.response .engine k ok d) s = .next t := by
  rw [exec_response _ _ _ _ s free, State.takeResponse_matched (r := .engine) quiet outstanding]
  have done : t.afterAnswer = t := by
    rcases goesOn with state | noAbort
    · exact State.afterAnswer_of_state state
    · simp [State.afterAnswer, noAbort]
  simp only [State.answer, answered, done]

theorem State.engineAnswer_firstRead {s : State} (d : BusData) (noReset : s.eng.resetPending = false)
    (task : s.eng.task = .readFirst) (fresh : s.eng.staleRead = false) (noAbort : s.eng.aborting = false) :
    s.engineAnswer (.okay d) = { s with eng := { s.eng with task := .readSecond d } } := by
  simp [State.engineAnswer, noReset, task, fresh, noAbort]

theorem State.engineAnswer_secondRead {s : State} {first : BusData} (d : BusData) (noReset : s.eng.resetPending = false)
    (task : s.eng.task = .readSecond first) (noAbort : s.eng.aborting = false) :
    (∀ e, prepareChecks s.eng.cba (d ++ first) = .error e → s.engineAnswer (.okay d) = s.failPrepare e) ∧
      (∀ su, prepareChecks s.eng.cba (d ++ first) = .ok su → s.engineAnswer (.okay d) = s.setUpSession su) := by
  constructor <;> intro x checks <;> simp [State.engineAnswer, noReset, task, noAbort, checks]

theorem State.engineAnswer_failedRead {s : State} (noReset : s.eng.resetPending = false)
    (task : s.eng.task = .readFirst ∨ ∃ first, s.eng.task = .readSecond first) (fresh : s.eng.staleRead = false)
    (noAbort : s.eng.aborting = false) : s.engineAnswer .error = s.failPrepare .busError := by
  rcases task with task | ⟨first, task⟩ <;> simp [State.engineAnswer, noReset, task, fresh, noAbort]

/-! ## The blocks of a failed and of a passed preparation (R151, R152) -/

theorem State.failPrepare_spec (s : State) (e : PrepareError) :
    (s.failPrepare e).eng.state = .off ∧ (s.failPrepare e).eng.prepError = e ∧
      (s.failPrepare e).win = { s.win with alert := s.win.alert ||| 0x80 } ∧ (s.failPrepare e).cal = s.cal ∧
      (s.failPrepare e).loader = s.loader ∧ (s.failPrepare e).chans = s.chans ∧ (s.failPrepare e).conv = s.conv ∧
      (s.failPrepare e).wr = s.wr ∧ (s.failPrepare e).tb = s.tb ∧ (s.failPrepare e).params = s.params ∧
      (s.failPrepare e).pins = s.pins ∧ (s.failPrepare e).eng.session = s.eng.session :=
  ⟨rfl, rfl, rfl, rfl, rfl, rfl, rfl, rfl, rfl, rfl, rfl, rfl⟩

theorem State.setUpSession_lane (s : State) (su : SessionSetup) (i : LaneId) :
    (s.setUpSession su).lane i = Lane.prepared (su.lanes[i]).1 (su.lanes[i]).2 := by
  simp [State.setUpSession, State.lane]

theorem State.setUpSession_chan (s : State) (su : SessionSetup) (i : ChanId) :
    (s.setUpSession su).chan i = Channel.prepared (levelOfBit (su.restLevels.getLsbD i.val)) (s.pins.tin[i]) true := by
  simp [State.setUpSession, State.chan]

/-- Settles O50: the first read is followed by the second, and the checks decide between OFF and a session set up. -/
theorem secondReadAnswered : Obligations.SecondReadAnswered := by
  refine ⟨fun s first d rq k g free quiet noReset preparing noAbort task outstanding => ⟨fun e failed => ?_,
    fun su passed => ?_⟩, fun s rq k g d free quiet noReset preparing noAbort fresh outstanding => ⟨fun task => ?_,
    fun task => ?_⟩⟩
  · have answered := (State.engineAnswer_secondRead (s := { s with port := s.port.ended .engine }) d noReset task
      noAbort).1 e failed
    refine ⟨_, State.exec_engineAnswer true d free quiet outstanding answered (.inl (by simp [State.failPrepare, State.raise])), ?_⟩
    exact State.failPrepare_spec { s with port := s.port.ended .engine } e
  · have answered := (State.engineAnswer_secondRead (s := { s with port := s.port.ended .engine }) d noReset task
      noAbort).2 su passed
    refine ⟨_, State.exec_engineAnswer true d free quiet outstanding answered (.inr noAbort), preparing, rfl, rfl, rfl, rfl,
      rfl, rfl, rfl, fun i => State.setUpSession_lane _ su i, fun ch => ?_, rfl, rfl, rfl, rfl, rfl, rfl, rfl, rfl⟩
    rw [State.setUpSession_chan]
    exact ⟨rfl, rfl, rfl, rfl⟩
  · have answered := State.engineAnswer_firstRead (s := { s with port := s.port.ended .engine }) d noReset task fresh noAbort
    exact ⟨_, State.exec_engineAnswer true d free quiet outstanding answered (.inr noAbort), rfl,
      by simp [State.engineWants, noAbort, controlRead], rfl, rfl, rfl, rfl⟩
  · have answered := State.engineAnswer_failedRead (s := { s with port := s.port.ended .engine }) noReset task fresh noAbort
    refine ⟨_, State.exec_engineAnswer false d free quiet outstanding answered (.inl (by simp [State.failPrepare, State.raise])), ?_⟩
    exact State.failPrepare_spec { s with port := s.port.ended .engine } .busError

end Sys2Proof.Machine
end

section
/-! PROOFS. The end summary (O53): when it is written, where its fields stand, and what the answers to its three writes
make of Engine Control. -/

namespace Sys2Proof.Machine

/-! ## The layout (R163)

The lengths of all parts are numerals, so each slice of the 128 bytes computes. -/

theorem length_laneSummaryBytes (l : Lane) : (laneSummaryBytes l).length = 12 := rfl

theorem length_summaryBytes (s : State) : (summaryBytes s).length = 128 := by
  simp [summaryBytes, length_laneSummaryBytes, zeros]

theorem summaryBytes_head (s : State) : (summaryBytes s).take 8 =
    [terminationCode s.eng, if s.eng.secondary then 1 else 0] ++ le 2 s.eng.session ++ le 4 s.eng.faultAddr := rfl

theorem summaryBytes_time (s : State) : ((summaryBytes s).drop 8).take 6 = le 6 s.tb.count := rfl

theorem summaryBytes_closeSeq (s : State) : ((summaryBytes s).drop 16).take 4 = le 4 s.wr.closeSeq := rfl

theorem summaryBytes_lost (s : State) : ((summaryBytes s).drop 20).take 4 = le 4 s.wr.lost := rfl

theorem summaryBytes_lane (s : State) (i : LaneId) :
    ((summaryBytes s).drop (24 + 12 * i.val)).take 12 = laneSummaryBytes (s.lane i) := by
  match i with
  | 0 => rfl
  | 1 => rfl
  | 2 => rfl
  | 3 => rfl

theorem summaryBytes_validWord (s : State) : (summaryBytes s).drop 124 = le 4 (s.eng.session.setWidth 32) := rfl

/-! ## When it is written (R158, R159, R161) -/

/-- With the three reports in, the summary waits for link deliveries alone. -/
theorem State.summaryDue_iff {s : State} (noReset : s.eng.resetPending = false) (task : s.eng.task = .none)
    (noRequest : s.port.engine = .none) (idle : s.eng.converterIdle = true) (quiet : s.eng.loaderQuiet = true)
    (complete : s.eng.pathComplete = true)
    (ending : (s.eng.state = .draining ∧ s.eng.markerPlaced = true) ∨
      ((s.eng.state = .ended ∨ s.eng.state = .faulted) ∧ s.eng.windDown = false)) :
    s.summaryDue = true ↔ s.links = [] := by
  have endings : ((s.eng.state == .draining && s.eng.markerPlaced) || s.windingDown) = true := by
    rcases ending with ⟨state, placed⟩ | ⟨state | state, running⟩
    · simp [state, placed]
    · simp [State.windingDown, state, running]
    · simp [State.windingDown, state, running]
  simp only [State.summaryDue, noReset, task, noRequest, idle, quiet, complete, endings, PortRequest.isNone]
  simp

/-! ## Its writes answered (R162, R164) -/

/-- An answer that ends the summary: an OKAY of the valid word's write, or a failure of any. -/
theorem State.engineAnswer_summary {s : State} {w : Fin 3} {bytes : List Byte} (ok : Bool) (d : BusData)
    (noReset : s.eng.resetPending = false) (task : s.eng.task = .summary w bytes) :
    (ok = true → w ≠ 2 →
      s.engineAnswer (responseAnswer ok d) = { s with eng := { s.eng with task := .summary (w + 1) bytes } }) ∧
    (ok = false ∨ w = 2 → s.engineAnswer (responseAnswer ok d) =
      State.finishSummary { s with eng := { s.eng with secondary := s.eng.secondary || !ok } }) := by
  cases ok with
  | true =>
    refine ⟨fun _ notLast => by simp [State.engineAnswer, responseAnswer, noReset, task, notLast], fun final => ?_⟩
    obtain rfl : w = 2 := by simpa using final
    have same : ({ s with eng := { s.eng with secondary := s.eng.secondary || !true } } : State) = s := by
      rw [Bool.not_true, Bool.or_false]
    rw [same]
    simp [State.engineAnswer, responseAnswer, noReset, task]
  | false => simp [State.engineAnswer, responseAnswer, noReset, task]

theorem State.finishSummary_of_faulted {s : State} (faulted : s.eng.state = .faulted) :
    s.finishSummary = { s with eng := { s.eng with windDown := true, task := .none } } := by
  simp only [State.finishSummary, faulted]

theorem State.finishSummary_of_ending {s : State} (ending : s.eng.state = .draining ∨ s.eng.state = .ended) :
    s.finishSummary =
      State.raise { s with eng := { s.eng with state := .ended, windDown := true, task := .none } } .ended := by
  rcases ending with state | state <;> simp only [State.finishSummary, state]

/-! ## The codes -/

theorem toNat_terminationCode (g : EngineControl) :
    (terminationCode g).toNat = (match g.state, g.faultCode with
      | .faulted, some .resultPathError => 0x81
      | .faulted, some .timebaseEnd => 0x82
      | _, _ => match g.endCause with
        | .none => 0 | .stopCommand => 1 | .endCue => 2 | .notStarted => 3 | .drainLoss => 4 | .aborted => 5) := by
  have cause : (BitVec.ofNat 8 g.endCause.code).toNat = (match g.endCause with
      | .none => 0 | .stopCommand => 1 | .endCue => 2 | .notStarted => 3 | .drainLoss => 4 | .aborted => 5) := by
    cases g.endCause <;> rfl
  unfold terminationCode
  rw [← cause]
  cases g.state
  case faulted =>
    cases g.faultCode with
    | none => rfl
    | some f => cases f <;> rfl
  all_goals rfl

/-- Settles O53: the summary is written when the session's work has ended, and its last answer ends the session. -/
theorem endSummaryWritten : Obligations.EndSummaryWritten := by
  refine ⟨fun s free noReset task noRequest idle quiet complete ending => ⟨fun links => ?_, fun links => ?_⟩,
    fun s bytes w rq n g d ok free quiet noReset task outstanding ending => ?_, toNat_terminationCode,
    fun l => by cases l <;> rfl⟩
  · have notDue := mt (State.summaryDue_iff noReset task noRequest idle quiet complete ending).mp links
    rw [exec_endSummaryWrite s free, State.takeSummary, if_neg notDue]
  · have due := (State.summaryDue_iff noReset task noRequest idle quiet complete ending).mpr links
    rw [exec_endSummaryWrite s free, State.takeSummary, if_pos due]
    exact ⟨s.beginSummary, summaryBytes s.holdTimebase, rfl, rfl, length_summaryBytes _, summaryBytes_head _,
      summaryBytes_time _, summaryBytes_closeSeq _, summaryBytes_lost _, summaryBytes_lane s.holdTimebase,
      summaryBytes_validWord _, rfl⟩
  · have notPreparing : s.eng.state ≠ .preparing := by rcases ending with state | state | state <;> simp [state]
    obtain ⟨next, last⟩ := State.engineAnswer_summary (s := { s with port := s.port.ended .engine }) ok d noReset task
    by_cases goesOn : ok = true ∧ w ≠ 2
    · refine ⟨_, State.exec_engineAnswer ok d free quiet outstanding (next goesOn.1 goesOn.2) (.inl notPreparing), rfl, rfl,
        rfl, rfl, fun _ _ => ⟨rfl, rfl⟩, fun final => ?_⟩
      rcases final with failed | isLast
      · simp [goesOn.1] at failed
      · exact absurd isLast goesOn.2
    · have final : ok = false ∨ w = 2 := by
        cases ok with
        | true => exact .inr (by simpa using goesOn)
        | false => exact .inl rfl
      have answered := last final
      by_cases faulted : s.eng.state = .faulted
      · rw [State.finishSummary_of_faulted (by exact faulted)] at answered
        refine ⟨_, State.exec_engineAnswer ok d free quiet outstanding answered (.inl notPreparing), rfl, rfl, rfl, rfl,
          fun okay notLast => absurd ⟨okay, notLast⟩ goesOn, fun _ => ⟨fun other => ?_, fun _ => ⟨rfl, rfl⟩⟩⟩
        simp [faulted] at other
      · have other : s.eng.state = .draining ∨ s.eng.state = .ended := by tauto
        rw [State.finishSummary_of_ending (by exact other)] at answered
        exact ⟨_, State.exec_engineAnswer ok d free quiet outstanding answered (.inl (by simp [State.raise])), rfl, rfl, rfl,
          rfl, fun okay notLast => absurd ⟨okay, notLast⟩ goesOn, fun _ => ⟨fun _ => ⟨rfl, rfl⟩,
          fun isFaulted => absurd isFaulted faulted⟩⟩

end Sys2Proof.Machine
end

section
/-! PROOFS. A fatal fault (R160, R161) and a failure of the result path (R139), once: the state in which the blocks are
stopped, and what becomes of Engine Control, the blocks and the writer. -/

namespace Sys2Proof.Machine

/-! ## The blocks stopped by a fatal fault -/

/-- Engine Control has entered FAULTED; the blocks are still to be stopped. -/
def State.faulting (s : State) (code : FatalFault) (address : Word) : State :=
  State.holdTimebase (State.raise { s.overtakeSummary with
    eng := { s.overtakeSummary.eng with
      state := .faulted, windDown := false, faultCode := some code, faultAddr := address } } .fault)

/-- The FAULT record of a failed result path is lost at once, and the path complete. -/
def State.faultLost (s : State) : State := { s with wr := s.wr.lose 1, eng := { s.eng with pathComplete := true } }

theorem State.fatalFault_timebaseEnd (s : State) (a : Word) :
    s.fatalFault .timebaseEnd a = (s.faulting .timebaseEnd a).stopBlocks.beginFlush := by
  unfold State.fatalFault State.faulting
  rfl

theorem State.fatalFault_resultPathError (s : State) (a : Word) :
    s.fatalFault .resultPathError a = (s.faulting .resultPathError a).stopBlocks.faultLost := by
  simp only [State.fatalFault, State.faulting, State.faultLost]

/-- A summary overtaken changes Engine Control's task alone. -/
theorem State.overtakeSummary_eq (s : State) :
    s.overtakeSummary = { s with eng := { s.eng with task := s.overtakeSummary.eng.task } } := by
  unfold State.overtakeSummary
  split <;> rfl

theorem State.faulting_eq (s : State) (code : FatalFault) (a : Word) :
    s.faulting code a = { s with
      eng := { s.eng with
        state := .faulted, windDown := false, faultCode := some code, faultAddr := a
        task := s.overtakeSummary.eng.task }
      tb := { s.tb with runs := false }
      win := { s.win with alert := s.win.alert ||| 0x40 } } := by
  unfold State.faulting
  rw [s.overtakeSummary_eq]
  rfl

/-- What the stop of the blocks does to a state in which a fault has been taken. -/
theorem State.faulting_stopRecords (s : State) (code : FatalFault) (a : Word) (cal : List Entry) :
    (s.faulting code a).stopRecords cal = s.stopRecords cal := by
  rw [State.faulting_eq]
  exact State.stopRecords_congr rfl rfl rfl cal

/-- Engine Control, the writer and the rest of the state once a fault has stopped the blocks (R161). -/
theorem State.faultStopped_spec (s : State) (code : FatalFault) (a : Word) :
    let t := (s.faulting code a).stopBlocks
    t.eng = { s.eng with state := .faulted, windDown := false, faultCode := some code, faultAddr := a
                         converterIdle := true, task := s.overtakeSummary.eng.task } ∧
      t.wr = s.wr.offered s.now (s.stopRecords s.cal) ∧ t.tb = { s.tb with runs := false } ∧
      t.win = { s.win with alert := s.win.alert ||| 0x40 } ∧
      t.port = { s.port with loader := s.port.loader.withdrawn } ∧ t.params = s.params ∧ t.links = s.links ∧
      t.pins = s.pins := by
  have records := s.faulting_stopRecords code a s.cal
  have faulting := s.faulting_eq code a
  generalize s.faulting code a = u at *
  dsimp only
  rw [State.stopBlocks_eng, State.stopBlocks_wr, State.stopBlocks_port]
  simp only [State.stopBlocks_frame]
  have cal : u.cal = s.cal := by rw [faulting]
  rw [cal, records, faulting]
  exact ⟨rfl, rfl, rfl, rfl, rfl, rfl, rfl, rfl⟩

/-- The blocks a fault stops (R161). -/
theorem State.faultStopped_blocks (s : State) (code : FatalFault) (a : Word) :
    let t := (s.faulting code a).stopBlocks
    t.cal = [] ∧
      (∀ i : LaneId, (t.lane i).state ≠ .active ∧ (t.lane i).state ≠ .waiting ∧ (t.lane i).state ≠ .blocked ∧
        (t.lane i).acceptedHead = none) ∧
      (∀ ch : ChanId, t.chan ch = (s.chan ch).sessionStop) ∧
      t.conv.power = .off ∧ t.conv.queue = [] ∧ t.conv.inFlight = none ∧ t.conv.closing = some .fault := by
  have chans : (s.faulting code a).chans = s.chans := by rw [State.faulting_eq]
  obtain ⟨cal, lanes, stopped, conv⟩ := (s.faulting code a).stopBlocks_spec
  exact ⟨cal, lanes, fun ch => (stopped ch).trans (by simp only [State.chan, chans]), conv⟩

/-! ## A failure of the result path (R139) -/

/-- While the session goes on, a failure of the result path is a fatal fault. -/
theorem State.pathFailure_of_fillsPages {s : State} (fills : s.fillsPages) (noReset : s.eng.resetPending = false)
    (a : Word) : s.pathFailure a = (s.pathLost.faulting .resultPathError a).stopBlocks.faultLost := by
  rw [← State.fatalFault_resultPathError]
  rcases fills with state | state | state | ⟨state, -, -⟩ <;>
    simp only [State.pathFailure, noReset, state, State.pathLost] <;> rfl

theorem State.pathLost_keeps (s : State) : s.pathLost.wr.keeps = false := by
  simp [Writer.keeps, Writer.stop, State.pathLost]

/-- The writer of a session whose result path has failed: what it held, what the stop produces and the FAULT record are
counted lost. -/
theorem State.pathFailure_wr {s : State} (fills : s.fillsPages) (noReset : s.eng.resetPending = false) (a : Word) :
    (s.pathFailure a).wr = { s.wr.stop with
      pathFailed := true
      lost := satAdd s.wr.stop.lost ((s.stopRecords s.cal).length + 1) } := by
  have records : s.pathLost.stopRecords s.cal = s.stopRecords s.cal := State.stopRecords_congr rfl rfl rfl _
  have kept := Writer.offered_of_not_keeps s.now s.pathLost_keeps (s.stopRecords s.cal)
  rw [Writer.offered_lost s.now s.pathLost_keeps] at kept
  obtain ⟨-, wr, -⟩ := s.pathLost.faultStopped_spec .resultPathError a
  rw [State.pathFailure_of_fillsPages fills noReset]
  generalize (s.pathLost.faulting .resultPathError a).stopBlocks = u at *
  have stopped : u.wr = s.pathLost.wr.offered s.now (s.stopRecords s.cal) := wr.trans (by rw [← records]; rfl)
  rw [State.faultLost, stopped, kept]
  simp only [Writer.lose, satAdd_satAdd]
  rfl

/-- Engine Control after it. -/
theorem State.pathFailure_eng {s : State} (fills : s.fillsPages) (noReset : s.eng.resetPending = false) (a : Word) :
    (s.pathFailure a).eng = { s.eng with
      state := .faulted, windDown := false, faultCode := some .resultPathError, faultAddr := a, converterIdle := true
      pathComplete := true, task := s.overtakeSummary.eng.task } := by
  have task : s.pathLost.overtakeSummary.eng.task = s.overtakeSummary.eng.task := by
    unfold State.overtakeSummary
    have eng : s.pathLost.eng.task = s.eng.task := rfl
    rw [eng]
    split <;> rfl
  obtain ⟨eng, -⟩ := s.pathLost.faultStopped_spec .resultPathError a
  rw [State.pathFailure_of_fillsPages fills noReset]
  generalize (s.pathLost.faulting .resultPathError a).stopBlocks = u at *
  rw [State.faultLost, eng, task]
  rfl

/-- The blocks after it are those of the fault. -/
theorem State.pathFailure_rest {s : State} (fills : s.fillsPages) (noReset : s.eng.resetPending = false) (a : Word) :
    (s.pathFailure a).tb = { s.tb with runs := false } ∧ (s.pathFailure a).cal = [] ∧
      (s.pathFailure a).win = { s.win with alert := s.win.alert ||| 0x40 } ∧
      (∀ i : LaneId, ((s.pathFailure a).lane i).state ≠ .active ∧ ((s.pathFailure a).lane i).state ≠ .waiting ∧
        ((s.pathFailure a).lane i).state ≠ .blocked ∧ ((s.pathFailure a).lane i).acceptedHead = none) ∧
      (∀ ch : ChanId, (s.pathFailure a).chan ch = (s.chan ch).sessionStop) ∧
      (s.pathFailure a).conv.power = .off ∧ (s.pathFailure a).conv.queue = [] ∧
      (s.pathFailure a).conv.inFlight = none ∧ (s.pathFailure a).conv.closing = some .fault ∧
      (s.pathFailure a).port = { s.port with loader := s.port.loader.withdrawn } := by
  rw [State.pathFailure_of_fillsPages fills noReset]
  obtain ⟨cal, lanes, chans, power, queue, inFlight, closing⟩ := s.pathLost.faultStopped_blocks .resultPathError a
  obtain ⟨-, -, tb, win, port, -⟩ := s.pathLost.faultStopped_spec .resultPathError a
  generalize (s.pathLost.faulting .resultPathError a).stopBlocks = u at *
  exact ⟨tb, cal, win, lanes, chans, power, queue, inFlight, closing, port⟩

end Sys2Proof.Machine
end

section
/-! PROOFS. The requests presented (O39): what Engine Control, the Loader and the Result Writer ask of the port next, and
what the window check makes of it (R29, R30, R168, R169; Table 8-2). -/

namespace Sys2Proof.Machine

/-! ## Presenting (R168, R169) -/

/-- A requester with no request presents, unless an engine reset is pending. -/
theorem State.mayPresent_iff (s : State) (r : Requester) :
    s.mayPresent r = true ↔ s.port.request r = .none ∧ s.eng.resetPending = false := by
  have isNone : (s.port.request r).isNone = true ↔ s.port.request r = .none := by
    cases s.port.request r <;> simp [PortRequest.isNone]
  simp only [State.mayPresent, Bool.and_eq_true, Bool.not_eq_true', isNone]

theorem State.presentRequest_of_pending {s : State} (pending : s.eng.resetPending = true) (r : Requester) :
    s.presentRequest r = s := by
  simp [State.presentRequest, State.mayPresent, pending]

/-- With no window in force every request waits. -/
theorem State.present_of_noWindow {s : State} (noWindow : s.port.window = none) (r : Requester) (rq : Request) :
    s.present r rq = { s with port := s.port.setRequest r (.waiting rq) } := by
  simp [State.present, State.windowPasses, noWindow]

theorem State.exec_presentEngine {s : State} {rq : Request} (free : s.free) (noRequest : s.port.engine = .none)
    (noReset : s.eng.resetPending = false) (wants : s.engineWants = some rq)
    (passes : s.present .engine rq = { s with port := { s.port with engine := .waiting rq } }) :
    exec (.requestPresent .engine) s = .next { s with port := { s.port with engine := .waiting rq } } := by
  rw [exec_requestPresent _ s free, State.presentRequest, if_pos ((s.mayPresent_iff .engine).mpr ⟨noRequest, noReset⟩)]
  simp only [State.presentEngine, wants, passes]

/-! ## The lane whose access is chosen (R29) -/

/-- What the rotation finds at a lane. -/
def State.laneChoice (s : State) (i : LaneId) : Option (LaneId × LaneAccessKind) :=
  match (s.lane i).pendingAccess (s.eng.state == .draining) with
  | some k => if s.eng.state == .draining && k != .status then none else some (i, k)
  | none => none

theorem State.chosenAccess_eq (s : State) : s.chosenAccess = (rotation s.loader.nextLane).findSome? s.laneChoice := rfl

/-- The rotation takes the first lane, from its own on, that has something to offer. -/
theorem findSome_rotation {α : Type} {f : LaneId → Option α} {first n : LaneId} {a : α}
    (earlier : ∀ m, m < n → f (first + m) = none) (here : f (first + n) = some a) :
    (rotation first).findSome? f = some a := by
  have at0 : f (first + 0) = f first := by rw [Fin.add_zero]
  match n with
  | 0 =>
    rw [at0] at here
    simp [rotation, here]
  | 1 =>
    have no0 := at0.symm.trans (earlier 0 (by decide))
    simp [rotation, no0, here]
  | 2 =>
    have no0 := at0.symm.trans (earlier 0 (by decide))
    simp [rotation, no0, earlier 1 (by decide), here]
  | 3 =>
    have no0 := at0.symm.trans (earlier 0 (by decide))
    simp [rotation, no0, earlier 1 (by decide), earlier 2 (by decide), here]

theorem State.not_draining_of_takesCues {s : State} (takes : s.takesCues = true) : (s.eng.state == .draining) = false := by
  cases state : s.eng.state <;> simp_all [State.takesCues, State.initialFetch]

/-- While cues are taken, the first lane with an access pending. -/
theorem State.chosenAccess_of_takesCues {s : State} {n : LaneId} {k : LaneAccessKind} (takes : s.takesCues = true)
    (earlier : ∀ m, m < n → (s.lane (s.loader.nextLane + m)).pendingAccess false = none)
    (here : (s.lane (s.loader.nextLane + n)).pendingAccess false = some k) :
    s.chosenAccess = some (s.loader.nextLane + n, k) := by
  have running := State.not_draining_of_takesCues takes
  rw [State.chosenAccess_eq]
  refine findSome_rotation (n := n) (fun m lt => ?_) ?_
  · simp only [State.laneChoice, running, earlier m lt]
  · simp only [State.laneChoice, running, here]
    rfl

/-- In a drain, the first lane with a status write pending. -/
theorem State.chosenAccess_of_draining {s : State} {n : LaneId} (draining : s.eng.state = .draining)
    (earlier : ∀ m, m < n → (s.lane (s.loader.nextLane + m)).pendingAccess true ≠ some .status)
    (here : (s.lane (s.loader.nextLane + n)).pendingAccess true = some .status) :
    s.chosenAccess = some (s.loader.nextLane + n, .status) := by
  have isDrain : (s.eng.state == .draining) = true := by simp [draining]
  rw [State.chosenAccess_eq]
  refine findSome_rotation (n := n) (fun m lt => ?_) ?_
  · have other := earlier m lt
    simp only [State.laneChoice, isDrain]
    cases pending : (s.lane (s.loader.nextLane + m)).pendingAccess true with
    | none => rfl
    | some k => cases k <;> simp_all
  · simp only [State.laneChoice, isDrain, here]
    rfl

/-! ## What a lane has pending (R29) -/

theorem Lane.oldestComplete_of_retired {l : Lane} {x : TrailEntry} {xs : List TrailEntry} {f : Finish}
    (trail : l.trail = x :: xs) (finish : x.finish = some f) (retired : x.retired = f.fill) : l.oldestComplete = true := by
  simp [Lane.oldestComplete, Lane.oldest, trail, TrailEntry.complete, finish, retired]

theorem Lane.pendingAccess_status {l : Lane} {draining : Bool} (complete : l.oldestComplete = true)
    (state : l.state = .active ∨ l.state = .waiting ∨ l.state = .blocked ∨ l.state = .ended ∨
      (l.state = .stopped ∧ draining = true)) : l.pendingAccess draining = some .status := by
  rcases state with state | state | state | state | ⟨state, drains⟩ <;> simp [Lane.pendingAccess, *]

theorem Lane.pendingAccess_header {l : Lane} (incomplete : l.oldestComplete = false)
    (asks : (l.state = .active ∧ l.fetchIndex = l.knownFill ∧ l.finish = none) ∨ (l.state = .waiting ∧ l.reread ≠ .absent)) :
    l.pendingAccess false = some .header := by
  rcases asks with ⟨state, atFill, noFinish⟩ | ⟨state, reread⟩
  · simp [Lane.pendingAccess, incomplete, state, atFill, noFinish]
  · simp [Lane.pendingAccess, incomplete, state, reread]

theorem Lane.pendingAccess_cue {l : Lane} (incomplete : l.oldestComplete = false) (active : l.state = .active)
    (noHead : l.head = none) (below : match l.finish with
      | none => l.fetchIndex < l.knownFill
      | some f => l.fetchIndex < f.fill) : l.pendingAccess false = some .cue := by
  cases finish : l.finish with
  | none =>
    rw [finish] at below
    have low : l.fetchIndex < l.knownFill := below
    have ne : l.fetchIndex ≠ l.knownFill := Nat.ne_of_lt low
    simp [Lane.pendingAccess, incomplete, active, noHead, finish, Lane.knownCues, low, ne]
  | some f =>
    rw [finish] at below
    have low : l.fetchIndex < f.fill := below
    simp [Lane.pendingAccess, incomplete, active, noHead, finish, Lane.knownCues, low]

theorem Lane.accessRequest_status {l : Lane} {x : TrailEntry} {xs : List TrailEntry} (trail : l.trail = x :: xs) :
    l.accessRequest .status =
      (x.address, { addr := x.address + 8, len := 4, write := true, data := [1, 0, 0, 0] }) := by
  simp only [Lane.accessRequest, Lane.oldest, trail, List.head?_cons]
  rfl

/-! ## The Loader's access issued (R29, R30) -/

/-- The Loader with an access of a lane under way: the rotation goes on from the lane after it. -/
def Loader.issuing (l : Loader) (i : LaneId) (k : LaneAccessKind) (segment : Word) : Loader :=
  { l with nextLane := i + 1, access := some { lane := i, kind := k, segment := segment } }

theorem State.exec_presentLoader {s : State} {i : LaneId} {k : LaneAccessKind} (free : s.free)
    (noRequest : s.port.loader = .none) (noReset : s.eng.resetPending = false) (works : s.loaderWorks = true)
    (chosen : s.chosenAccess = some (i, k)) : exec (.requestPresent .loader) s = .next (s.presentLane i k) := by
  rw [exec_requestPresent _ s free, State.presentRequest, if_pos ((s.mayPresent_iff .loader).mpr ⟨noRequest, noReset⟩)]
  simp only [State.presentLoader, works, chosen, if_true]

/-- An access in the window waits for its grant. -/
theorem State.presentLane_of_covers {s : State} {i : LaneId} {k : LaneAccessKind} {w : Window} {seg : Word} {rq : Request}
    (window : s.port.window = some w) (request : (s.lane i).accessRequest k = (seg, rq))
    (goes : k = .cue → (s.lane i).seqCounter ≠ BitVec.allOnes 32) (covers : w.covers rq.addr rq.len) :
    s.presentLane i k = { s with loader := s.loader.issuing i k seg, port := { s.port with loader := .waiting rq } } := by
  unfold State.presentLane
  rw [if_neg fun stops => goes stops.1 stops.2]
  simp only [request]
  exact (State.present_eq (s := { s with loader := s.loader.issuing i k seg }) .loader rq window).1 covers

/-- A cue read with the sequence counter at its limit is not issued (R30). -/
theorem State.presentLane_of_limit {s : State} {i : LaneId} (limit : (s.lane i).seqCounter = BitVec.allOnes 32) :
    s.presentLane i .cue = s.laneFault i .sequenceLimit (s.lane i).current := by
  unfold State.presentLane
  rw [if_pos ⟨rfl, limit⟩]

/-- An answer reaches the lane of the access (R172). -/
theorem State.loaderAnswer_of_works {s : State} {acc : LaneAccess} (access : s.loader.access = some acc)
    (works : s.loaderWorks = true) (noReset : s.eng.resetPending = false) (a : Answer) :
    s.loaderAnswer a = State.laneAnswer { s with loader := { s.loader with access := none } } acc a := by
  simp [State.loaderAnswer, access, works, noReset]

theorem State.laneAnswer_outsideWindow {s : State} {i : LaneId}
    (state : (s.lane i).state = .active ∨ (s.lane i).state = .waiting) (seg : Word) :
    s.laneAnswer { lane := i, kind := .header, segment := seg } .outsideWindow = s.laneFault i .badNext seg := by
  rcases state with state | state <;> simp [State.laneAnswer, state, failureCause]

/-- A header read outside the window faults its lane (Table 2-4). -/
theorem State.presentLane_of_outside {s : State} {i : LaneId} {w : Window} (takes : s.takesCues = true)
    (noReset : s.eng.resetPending = false) (state : (s.lane i).state = .active ∨ (s.lane i).state = .waiting)
    (window : s.port.window = some w) (outside : ¬ w.covers (s.lane i).current 32) :
    s.presentLane i .header =
      State.laneFault { s with loader := { s.loader with nextLane := i + 1, access := none } } i .badNext
        (s.lane i).current := by
  have answered : State.loaderAnswer { s with loader := s.loader.issuing i .header (s.lane i).current } .outsideWindow =
      State.laneFault { s with loader := { s.loader with nextLane := i + 1, access := none } } i .badNext
        (s.lane i).current :=
    (State.loaderAnswer_of_works (acc := { lane := i, kind := .header, segment := (s.lane i).current }) rfl
      (State.loaderWorks_of_takesCues (by exact takes)) (by exact noReset) .outsideWindow).trans
      (State.laneAnswer_outsideWindow (by exact state) _)
  unfold State.presentLane
  rw [if_neg (by simp)]
  have presented := (State.present_eq (s := { s with loader := s.loader.issuing i .header (s.lane i).current }) .loader
    ((s.lane i).accessRequest .header).2 (by exact window)).2 (by exact outside)
  refine presented.trans ?_
  rw [State.answer, answered]
  exact State.afterAnswer_of_takesCues (State.takesCues_of_eng (s := s) (by simp) takes)

/-! ## The Result Writer's access presented (Table 8-2) -/

theorem State.writerWorks_of_session {s : State} (session : s.eng.state = .armed ∨ s.eng.state = .running ∨
    s.eng.state = .draining ∨ (s.eng.state = .preparing ∧ s.eng.checked = true ∧ s.eng.aborting = false) ∨
    (s.eng.state = .faulted ∧ s.wr.flushing = true) ∨ (s.eng.state = .ended ∧ s.wr.aborting = true)) :
    s.writerWorks = true := by
  rcases session with h | h | h | ⟨h, checked, noAbort⟩ | ⟨h, flushing⟩ | ⟨h, aborting⟩ <;>
    simp [State.writerWorks, State.initialFetch, *]

theorem State.exec_presentWriter {s : State} {rq : Request} {task : WriterTask} (free : s.free)
    (noRequest : s.port.writer = .none) (noReset : s.eng.resetPending = false) (works : s.writerWorks = true)
    (wants : s.writerWants = some (rq, task)) : exec (.requestPresent .writer) s =
      .next (State.present { s with wr := { s.wr with task := task } } .writer rq) := by
  rw [exec_requestPresent _ s free, State.presentRequest, if_pos ((s.mayPresent_iff .writer).mpr ⟨noRequest, noReset⟩)]
  simp only [State.presentWriter, works, wants, if_true]

/-- In the window it waits for its grant. -/
theorem State.exec_presentWriter_of_covers {s : State} {rq : Request} {task : WriterTask} {w : Window} (free : s.free)
    (noRequest : s.port.writer = .none) (noReset : s.eng.resetPending = false) (works : s.writerWorks = true)
    (window : s.port.window = some w) (wants : s.writerWants = some (rq, task)) (covers : w.covers rq.addr rq.len) :
    exec (.requestPresent .writer) s =
      .next { s with wr := { s.wr with task := task }, port := { s.port with writer := .waiting rq } } := by
  rw [State.exec_presentWriter free noRequest noReset works wants]
  exact congrArg _ ((State.present_eq (s := { s with wr := { s.wr with task := task } }) .writer rq window).1 covers)

/-- The record at the head of the queue goes to the page's next free offset (R135). -/
theorem State.writerWants_record {s : State} {p : Page} {r : Rec} {rest : List Item} (task : s.wr.task = .none)
    (opened : s.wr.state = .opened) (page : s.wr.page = some p) (queue : s.wr.queue = .record r :: rest) :
    s.writerWants = some ({ addr := p.address + BitVec.ofNat 32 p.nextFree, len := recLength r, write := true
                            data := recBytes r }, .record (recLength r)) := by
  simp only [State.writerWants, task, opened, page, queue]

/-- Outside the window the result path fails, while the session goes on (R139). -/
theorem State.exec_presentWriter_of_outside {s : State} {rq : Request} {task : WriterTask} {w : Window} (free : s.free)
    (noRequest : s.port.writer = .none) (noReset : s.eng.resetPending = false) (fills : s.fillsPages)
    (window : s.port.window = some w) (wants : s.writerWants = some (rq, task)) (outside : ¬ w.covers rq.addr rq.len) :
    exec (.requestPresent .writer) s =
      .next (State.pathFailure { s with wr := { s.wr with task := task } } rq.addr) := by
  rw [State.exec_presentWriter free noRequest noReset (State.writerWorks_of_fillsPages fills) wants,
    (State.present_eq (s := { s with wr := { s.wr with task := task } }) .writer rq (by exact window)).2 outside]
  have works : State.writerWorks { s with wr := { s.wr with task := task } } = true :=
    State.writerWorks_of_fillsPages (by exact fills)
  have answered : State.writerAnswer { s with wr := { s.wr with task := task } } rq.addr .outsideWindow =
      State.pathFailure { s with wr := { s.wr with task := task } } rq.addr := by
    simp only [State.writerAnswer, works]
    rfl
  rw [State.answer, answered, State.afterAnswer_of_state]
  rw [State.pathFailure_eng (by exact fills) (by exact noReset)]
  simp

/-! ## The obligation -/

/-- Engine Control's reads and the summary's writes. -/
theorem requestsPresented_engine (s : State) (free : s.free) (noRequest : s.port.engine = .none) :
    (s.eng.resetPending = false → s.eng.task = .readFirst → s.port.window = none →
      exec (.requestPresent .engine) s = .next { s with port := { s.port with
        engine := .waiting { addr := s.eng.cba, len := 64, write := false, data := [] } } }) ∧
    (∀ first, s.eng.resetPending = false → s.eng.task = .readSecond first → s.eng.aborting = false →
      s.port.window = none →
      exec (.requestPresent .engine) s = .next { s with port := { s.port with
        engine := .waiting { addr := s.eng.cba + 64, len := 64, write := false, data := [] } } }) ∧
    (∀ k bytes w, s.eng.resetPending = false → s.eng.task = .summary k bytes → s.port.window = some w →
      w.covers (summaryWrite s.eng.cba k bytes).addr (summaryWrite s.eng.cba k bytes).len →
      exec (.requestPresent .engine) s = .next { s with port := { s.port with
        engine := .waiting (summaryWrite s.eng.cba k bytes) } }) := by
  refine ⟨fun noReset task noWindow => ?_, fun first noReset task noAbort noWindow => ?_,
    fun k bytes w noReset task window covers => ?_⟩
  · exact State.exec_presentEngine free noRequest noReset (by simp [State.engineWants, task, controlRead])
      (State.present_of_noWindow noWindow _ _)
  · exact State.exec_presentEngine free noRequest noReset (by simp [State.engineWants, task, noAbort, controlRead])
      (State.present_of_noWindow noWindow _ _)
  · exact State.exec_presentEngine free noRequest noReset (by simp [State.engineWants, task])
      ((State.present_eq .engine _ window).1 covers)

/-- Settles O39: each requester presents what Table 8-2 says, and the window check stands before the grant. -/
theorem requestsPresented : Obligations.RequestsPresented := by
  refine ⟨fun s free noRequest => ?_, fun s w n free noReset noRequest noAccess window => ?_,
    fun s w free noReset noRequest window session => ?_⟩
  · obtain ⟨first, second, summary⟩ := requestsPresented_engine s free noRequest
    refine ⟨first, second, fun k bytes w noReset task window => ?_, fun pending r => ?_⟩
    · have presented := summary k bytes w noReset task window
      match k with
      | 0 => exact presented
      | 1 => exact presented
      | 2 => exact presented
    · rw [exec_requestPresent _ s free, State.presentRequest_of_pending pending]
  · intro i issued
    refine ⟨fun takes earlier => ⟨fun x xs f trail finish retired state covers => ?_, fun incomplete =>
      ⟨fun asks => ⟨fun covers => ?_, fun outside => ?_⟩, fun active noHead below =>
        ⟨fun a isAddr notLimit covers => ?_, fun limit => ?_⟩⟩⟩,
      fun draining earlier x xs f trail finish retired stopped covers => ?_⟩
    · have pending := Lane.pendingAccess_status (draining := false) (Lane.oldestComplete_of_retired trail finish retired)
        (by tauto)
      rw [State.exec_presentLoader free noRequest noReset (State.loaderWorks_of_takesCues takes)
        (State.chosenAccess_of_takesCues takes earlier pending)]
      exact congrArg _ (State.presentLane_of_covers window
        (Lane.accessRequest_status trail) (by simp) (by exact covers))
    · have pending := Lane.pendingAccess_header incomplete asks
      rw [State.exec_presentLoader free noRequest noReset (State.loaderWorks_of_takesCues takes)
        (State.chosenAccess_of_takesCues takes earlier pending)]
      exact congrArg _ (State.presentLane_of_covers window rfl (by simp) (by exact covers))
    · have pending := Lane.pendingAccess_header incomplete asks
      have state : (s.lane i).state = .active ∨ (s.lane i).state = .waiting := by tauto
      rw [State.exec_presentLoader free noRequest noReset (State.loaderWorks_of_takesCues takes)
        (State.chosenAccess_of_takesCues takes earlier pending),
        State.presentLane_of_outside takes noReset state window outside]
      obtain ⟨faulted, win, wr, -⟩ := State.laneFault_spec
        { s with loader := { s.loader with nextLane := i + 1, access := none } } i .badNext (s.lane i).current
      exact ⟨_, rfl, faulted, by simp only [State.laneFault_frame], wr, win⟩
    · have pending := Lane.pendingAccess_cue incomplete active noHead below
      subst isAddr
      rw [State.exec_presentLoader free noRequest noReset (State.loaderWorks_of_takesCues takes)
        (State.chosenAccess_of_takesCues takes earlier pending)]
      exact congrArg _ (State.presentLane_of_covers window rfl (fun _ => notLimit) (by exact covers))
    · have pending := Lane.pendingAccess_cue incomplete active noHead below
      rw [State.exec_presentLoader free noRequest noReset (State.loaderWorks_of_takesCues takes)
        (State.chosenAccess_of_takesCues takes earlier pending), State.presentLane_of_limit limit]
      obtain ⟨faulted, win, wr, -⟩ := s.laneFault_spec i .sequenceLimit (s.lane i).current
      have noAccepted : (s.lane i).acceptedHead = none := by simp only [Lane.acceptedHead, noHead]
      rw [noAccepted] at wr
      exact ⟨_, rfl, faulted, by simp only [State.laneFault_frame], wr, win⟩
    · have pending := Lane.pendingAccess_status (draining := true) (Lane.oldestComplete_of_retired trail finish retired)
        (by tauto)
      rw [State.exec_presentLoader free noRequest noReset (by simp [State.loaderWorks, draining])
        (State.chosenAccess_of_draining draining earlier pending)]
      exact congrArg _ (State.presentLane_of_covers window
        (Lane.accessRequest_status trail) (by simp) (by exact covers))
  · intro presented entryWrite
    have works := State.writerWorks_of_session session
    refine ⟨fun p r rest task opened page queue => ?_, fun es task covers => ?_, fun x todo good task => ?_, fun x task => ?_, fun p c page task covers => ?_,
      fun p c page task => ?_⟩
    · intro a
      refine ⟨fun covers => ?_, fun outside notFaulted notEnded => ?_⟩
      · exact State.exec_presentWriter_of_covers free noRequest noReset works window
          (State.writerWants_record task opened page queue) covers
      · have fills : s.fillsPages := by unfold State.fillsPages; tauto
        have run := State.exec_presentWriter_of_outside free noRequest noReset fills window
          (State.writerWants_record task opened page queue) outside
        refine ⟨_, run, ?_⟩
        rw [State.pathFailure_eng (by exact fills) (by exact noReset), State.pathFailure_wr (by exact fills) (by exact noReset)]
        have port := (State.pathFailure_rest (s := { s with wr := { s.wr with task := .record (recLength r) } }) fills
          noReset a).2.2.2.2.2.2.2.2.2
        exact ⟨rfl, rfl, rfl, rfl, (congrArg Port.writer port).trans noRequest⟩
    · exact State.exec_presentWriter_of_covers free noRequest noReset works window
        (by simp only [State.writerWants, task, slotTableRead]) covers
    · intro reason rq covers
      have wants : s.writerWants = some (rq, .reject (x :: todo) good) := by
        simp only [State.writerWants, task]
        cases why : x.reason <;> simp only [rq, reason, why] <;> rfl
      exact State.exec_presentWriter_of_covers free noRequest noReset works window wants covers
    · intro rq covers
      have wants : s.writerWants = some (rq, .fill x) := by
        simp only [State.writerWants, task]
        rfl
      exact State.exec_presentWriter_of_covers free noRequest noReset works window wants covers
    · exact State.exec_presentWriter_of_covers free noRequest noReset works window
        (by simp only [State.writerWants, task, page, Option.map_some]) covers
    · intro rq covers
      have wants : s.writerWants = some (rq, .closed c) := by
        simp only [State.writerWants, task, page, Option.map_some]
        rfl
      exact State.exec_presentWriter_of_covers free noRequest noReset works window wants covers

end Sys2Proof.Machine
end

section
/-! PROOFS. Header reads and status writes answered (O44): what a header says of its segment, what each answer makes of the
lane, and where the lane moves on to (R36, R38, R44, R45). -/

namespace Sys2Proof.Machine

/-! ## An answer that reaches a lane (R172) -/

/-- The Loader's transaction has ended, and its access is given back. -/
def State.accessEnded (s : State) : State :=
  { s with loader := { s.loader with access := none }, port := s.port.ended .loader }

theorem State.afterAnswer_of_loaderWorks {s t : State} (works : s.loaderWorks = true) (eng : t.eng = s.eng) :
    t.afterAnswer = t := by
  simp only [State.loaderWorks, Bool.or_eq_true, beq_iff_eq] at works
  rcases works with takes | draining
  · exact State.afterAnswer_of_takesCues (State.takesCues_of_eng eng takes)
  · exact State.afterAnswer_of_state (by simp [eng, draining])

/-- An OKAY of the Loader at work goes to its lane: a status write's always, a read's while no engine reset is pending. -/
theorem State.exec_loaderOkay {s : State} {acc : LaneAccess} {rq : Request} {k : Byte} {g : Nat} (d : BusData)
    (free : s.free) (quiet : s.port.quiet = none) (works : s.loaderWorks = true)
    (outstanding : s.port.loader = .outstanding rq k g) (access : s.loader.access = some acc)
    (taken : s.eng.resetPending = false ∨ acc.kind = .status) :
    exec (.response .loader k true d) s = .next (s.accessEnded.laneAnswer acc (.okay d)) := by
  rw [exec_response _ _ _ _ s free, State.takeResponse_matched (r := .loader) quiet outstanding]
  have atWork : State.loaderWorks { s with port := s.port.ended .loader } = true := works
  have answered : State.loaderAnswer { s with port := s.port.ended .loader } (.okay d) =
      s.accessEnded.laneAnswer acc (.okay d) := by
    simp only [State.loaderAnswer, access, atWork]
    rcases taken with noReset | status
    · simp only [noReset]
      rfl
    · simp only [status]
      split
      · contradiction
      · split <;> rfl
  simp only [State.answer, responseAnswer, if_true, answered]
  rw [State.afterAnswer_of_loaderWorks works (by simp [State.accessEnded])]

/-! ## What a header says (R36, Table 9-8) -/

theorem readHeader_finished (d : BusData) : (readHeader d).finished = d.getLsbD 8 := by
  simp [readHeader, byteAt]

theorem nextGood_iff (window : Option Window) (next : Word) :
    nextGood window next = true ↔ next = 0 ∨ (next.toNat % 2048 = 0 ∧
      ∃ w, window = some w ∧ w.base.toNat ≤ next.toNat ∧ next.toNat + 2048 ≤ w.limit.toNat) := by
  cases window with
  | none => simp [nextGood, windowHolds]
  | some w => simp [nextGood, windowHolds, Window.holds]

theorem getLast?_changeNewest (f : TrailEntry → TrailEntry) (l : List TrailEntry) :
    (changeNewest f l).getLast? = l.getLast?.map f := by
  rw [changeNewest_eq_atNewest]
  cases last : l.getLast? with
  | none =>
    rw [List.getLast?_eq_none_iff] at last
    simp [TrailEntry.atNewest, last]
  | some x => simp [TrailEntry.atNewest, last]

/-- The lane whose segment's header has been read finished. -/
def Lane.sawFinish (l : Lane) (fill : Nat) (next : Word) : Lane :=
  { l with state := .active, knownFill := fill, reread := .absent
           trail := TrailEntry.atNewest (fun x => { x with finish := some { fill := fill, next := next } }) l.trail }

theorem Lane.sawFinish_finish {l : Lane} (fill : Nat) (next : Word) (trail : l.trail ≠ []) :
    (l.sawFinish fill next).finish = some { fill := fill, next := next } := by
  have newest : (l.sawFinish fill next).trail.getLast? =
      l.trail.getLast?.map fun x => { x with finish := some { fill := fill, next := next } } := by
    rw [← getLast?_changeNewest, changeNewest_eq_atNewest]
    rfl
  obtain ⟨x, last⟩ := Option.ne_none_iff_exists'.mp (mt List.getLast?_eq_none_iff.mp trail)
  simp only [Lane.finish, Lane.newest, newest, last, Option.map_some, Option.bind_some]

/-! ## A header read answered (R36) -/

section
variable {s : State} {i : LaneId} {h : SegmentHeader}

theorem State.headerRead_of_range (range : 63 < h.fill) :
    s.headerRead i h = s.laneFault i .fillRange (s.lane i).current := by
  simp only [State.headerRead]
  rw [if_pos range]

variable (inRange : h.fill ≤ 63)
include inRange

theorem State.headerRead_of_backwards (backwards : h.fill < (s.lane i).knownFill) :
    s.headerRead i h = s.laneFault i .fillBackwards (s.lane i).current := by
  simp only [State.headerRead]
  rw [if_neg (by omega), if_pos backwards]

theorem State.headerRead_of_grown (unfinished : h.finished = false) (grown : (s.lane i).knownFill < h.fill) :
    s.headerRead i h = s.setLane i { s.lane i with state := .active, knownFill := h.fill, reread := .absent } := by
  simp only [State.headerRead]
  rw [if_neg (by omega), if_neg (by omega), if_neg (by simp [unfinished]), if_pos grown]

theorem State.headerRead_of_same (unfinished : h.finished = false) (same : h.fill = (s.lane i).knownFill) :
    s.headerRead i h = s.setLane i { s.lane i with
      state := .waiting, reread := if (s.lane i).reread = .kept then .present else .absent } := by
  have answered : Lane.rereadAnswered { s.lane i with state := .waiting } = { s.lane i with
      state := .waiting, reread := if (s.lane i).reread = .kept then .present else .absent } := by
    unfold Lane.rereadAnswered
    cases reread : (s.lane i).reread <;> simp [reread]
  simp only [State.headerRead]
  rw [if_neg (by omega), if_neg (by omega), if_neg (by simp [unfinished]), if_neg (by omega), answered]

variable (forwards : (s.lane i).knownFill ≤ h.fill) (finished : h.finished = true)
include forwards finished

theorem State.headerRead_of_badNext (bad : ¬ nextGood s.port.window h.next = true) :
    s.headerRead i h = s.laneFault i .badNext (s.lane i).current := by
  simp only [State.headerRead]
  rw [if_neg (by omega), if_neg (by omega), if_pos finished, if_neg bad]

theorem State.headerRead_of_good (good : nextGood s.port.window h.next = true) :
    s.headerRead i h = (s.setLane i ((s.lane i).sawFinish h.fill h.next)).moveOn i := by
  simp only [State.headerRead]
  rw [if_neg (by omega), if_neg (by omega), if_pos finished, if_pos good]
  simp only [Lane.sawFinish, changeNewest_eq_atNewest]

end

/-- A lane that has just been changed moves on: where its segment is finished and used up, and that it stays else (R38). -/
theorem State.moveOn_setLane (s : State) (i : LaneId) (l : Lane) {f : Finish} (finish : l.finish = some f) :
    let t := (s.setLane i l).moveOn i
    (l.fetchIndex ≠ f.fill → t = s.setLane i l) ∧
    (l.fetchIndex = f.fill →
      (f.next = 0 → t = s.setLane i { l with state := .ended, reread := .absent }) ∧
      (f.next ≠ 0 → 4 ≤ l.trail.length →
        t = s.setLane i { l with state := .blocked, pendingNext := some f.next, reread := .absent }) ∧
      (f.next ≠ 0 → l.trail.length < 4 → (∀ y ∈ l.trail, y.address ≠ f.next) → t = s.setLane i (l.entered f.next)) ∧
      (f.next ≠ 0 → l.trail.length < 4 → (∃ y ∈ l.trail, y.address = f.next) →
        t = (s.setLane i l).laneFault i .badNext l.current)) := by
  have lane := State.lane_setLane_same s i l
  have twice (l' : Lane) : (s.setLane i l).setLane i l' = s.setLane i l' := by
    simp only [State.setLane, Vector.set_set]
  obtain ⟨stays, moves⟩ := State.moveOn_of_finished (s := s.setLane i l) (i := i) (by rw [lane]; exact finish)
  rw [lane] at stays moves
  simp only [twice] at moves
  exact ⟨stays, moves⟩

/-! ## A status write answered (R44, R45) -/

section
variable {s : State} {i : LaneId}

/-- The oldest entry goes, where the lane does not enter a segment it was blocked at. -/
theorem State.statusWritten_of_not_blocked (notBlocked : (s.lane i).state ≠ .blocked) :
    s.statusWritten i = (s.setLane i { s.lane i with trail := (s.lane i).trail.tail }).laneEnded i := by
  unfold State.statusWritten
  dsimp only
  split
  · next blocked _ => exact absurd blocked notBlocked
  · rfl

theorem State.statusWritten_of_blocked {next : Word} (blocked : (s.lane i).state = .blocked)
    (pending : (s.lane i).pendingNext = some next) :
    ((∀ y ∈ (s.lane i).trail.tail, y.address ≠ next) →
      s.statusWritten i = s.setLane i (Lane.entered { s.lane i with trail := (s.lane i).trail.tail } next)) ∧
    ((∃ y ∈ (s.lane i).trail.tail, y.address = next) →
      s.statusWritten i = (s.setLane i { s.lane i with trail := (s.lane i).trail.tail }).laneFault i .badNext
        (s.lane i).current) := by
  obtain ⟨enters, refuses⟩ := Lane.enter_eq { s.lane i with trail := (s.lane i).trail.tail } next
  dsimp only at enters refuses
  unfold State.statusWritten
  dsimp only
  split
  · next next' _ isNext =>
    obtain rfl : next' = next := by simpa [pending] using isNext.symm
    refine ⟨fun fresh => ?_, fun stands => ?_⟩
    · rw [enters fresh]
    · rw [refuses stands]
  · next other => exact absurd pending (other next blocked)

theorem State.laneEnded_of_not (not : (s.lane i).state ≠ .ended ∨ (s.lane i).trail ≠ []) : s.laneEnded i = s := by
  simp only [State.laneEnded]
  rw [if_neg]
  rintro ⟨ended, empty⟩
  rcases not with h | h <;> contradiction

theorem State.laneEnded_of_ended (ended : (s.lane i).state = .ended) (empty : (s.lane i).trail = []) :
    s.laneEnded i = (s.offer (.laneEvent i .ended (s.lane i).current (s.lane i).seqCounter s.now)).raise .lane := by
  simp only [State.laneEnded]
  rw [if_pos ⟨ended, empty⟩]

end

theorem State.laneAnswer_header {s : State} {i : LaneId} (state : (s.lane i).state = .active ∨ (s.lane i).state = .waiting)
    (seg : Word) (d : BusData) :
    s.laneAnswer { lane := i, kind := .header, segment := seg } (.okay d) = s.headerRead i (readHeader d) := by
  rcases state with state | state <;> simp [State.laneAnswer, state]

theorem State.laneAnswer_status {s : State} {i : LaneId} (on : (s.lane i).state ≠ .off)
    (notFaulted : (s.lane i).state ≠ .faulted) (seg : Word) (d : BusData) :
    s.laneAnswer { lane := i, kind := .status, segment := seg } (.okay d) = s.statusWritten i := by
  unfold State.laneAnswer
  cases state : (s.lane i).state <;> simp_all

/-! ## The obligation -/

/-- The header read's half. -/
theorem headerReadAnswered (s : State) (i : LaneId) (seg : Word) (rq : Request) (k : Byte) (g : Nat) (d : BusData)
    (free : s.free) (quiet : s.port.quiet = none) (noReset : s.eng.resetPending = false) (takes : s.takesCues = true)
    (outstanding : s.port.loader = .outstanding rq k g)
    (access : s.loader.access = some { lane := i, kind := .header, segment := seg })
    (state : (s.lane i).state = .active ∨ (s.lane i).state = .waiting) :
    exec (.response .loader k true d) s = .next (s.accessEnded.headerRead i (readHeader d)) := by
  rw [State.exec_loaderOkay d free quiet (State.loaderWorks_of_takesCues takes) outstanding access (.inl noReset),
    State.laneAnswer_header (by exact state)]

/-- Settles O44: a header read and a status write answered OKAY, and where the lane moves on to. -/
theorem headerReadAndStatusWrite : Obligations.HeaderReadAndStatusWrite := by
  refine ⟨fun s i seg rq k g d free quiet noReset takes outstanding access state => ?_,
    fun s i seg rq k g d x xs free quiet works outstanding access trail => ⟨fun state => ?_, fun ended empty => ?_,
      fun next blocked pending => ⟨fun fresh => ?_, fun stands => ?_⟩⟩⟩
  · intro fill next good
    have isGood : nextGood s.accessEnded.port.window (readHeader d).next = true ↔ good := nextGood_iff _ _
    have run := headerReadAnswered s i seg rq k g d free quiet noReset takes outstanding access state
    have finished := readHeader_finished d
    refine ⟨_, run, ?_, by simp [State.accessEnded]⟩
    have lane : s.accessEnded.lane i = s.lane i := rfl
    have sameFill : (readHeader d).fill = fill := rfl
    have sameNext : (readHeader d).next = next := rfl
    intro faulted
    have faults (cause : LaneFaultCause) (u : State) (read : s.accessEnded.headerRead i (readHeader d) =
        u.laneFault i cause (s.lane i).current) (wr : u.wr = s.wr) (win : u.win = s.win) (now : u.now = s.now)
        (head : (u.lane i).acceptedHead = (s.lane i).acceptedHead) : faulted cause := by
      obtain ⟨isFaulted, alert, offered, -⟩ := u.laneFault_spec i cause (s.lane i).current
      rw [wr, now, head] at offered
      rw [win] at alert
      simp only [faulted, read]
      exact ⟨isFaulted, alert, offered⟩
    refine ⟨fun range => ?_, fun inRange backwards => ?_, fun inRange unfinished grown => ?_,
      fun unfinished same inRange => ?_, fun inRange forwards isFinished bad => ?_,
      fun inRange forwards isFinished isGoodNext nonempty => ?_⟩
    · exact faults _ _ (State.headerRead_of_range range) rfl rfl rfl rfl
    · exact faults _ _ (State.headerRead_of_backwards inRange backwards) rfl rfl rfl rfl
    · rw [State.headerRead_of_grown (s := s.accessEnded) inRange (finished.trans unfinished) (by exact grown)]
      exact ⟨State.lane_setLane_same _ _ _, rfl⟩
    · rw [State.headerRead_of_same (s := s.accessEnded) inRange (finished.trans unfinished) (by exact same)]
      exact ⟨State.lane_setLane_same _ _ _, rfl, rfl⟩
    · exact faults _ _ (State.headerRead_of_badNext inRange forwards (finished.trans isFinished) (mt isGood.mp bad))
        rfl rfl rfl rfl
    · have read := State.headerRead_of_good (s := s.accessEnded) (i := i) (h := readHeader d) inRange (by exact forwards) (finished.trans isFinished)
        (isGood.mpr isGoodNext)
      rw [lane, sameFill, sameNext] at read
      obtain ⟨stays, moves⟩ := State.moveOn_setLane s.accessEnded i ((s.lane i).sawFinish fill next)
        (Lane.sawFinish_finish fill next nonempty)
      rw [← read] at stays moves
      intro l
      have becomes (l' : Lane) (isLane : s.accessEnded.headerRead i (readHeader d) = s.accessEnded.setLane i l') :
          (s.accessEnded.headerRead i (readHeader d)).lane i = l' ∧
            (s.accessEnded.headerRead i (readHeader d)).wr = s.wr ∧
            (s.accessEnded.headerRead i (readHeader d)).win = s.win := by
        rw [isLane]
        exact ⟨State.lane_setLane_same _ _ _, rfl, rfl⟩
      refine ⟨fun below => becomes _ (stays below), fun used last => becomes _ ((moves used).1 last),
        fun used more full => becomes _ ((moves used).2.1 more full),
        fun used more room fresh => becomes _ ((moves used).2.2.1 more room fresh), fun used more room stands => ?_⟩
      refine faults _ _ ((moves used).2.2.2 more room stands) rfl rfl rfl ?_
      rw [State.lane_setLane_same]
      rfl
  all_goals
    have taken : s.accessEnded.lane i = s.lane i := rfl
    have rest : (s.accessEnded.lane i).trail.tail = xs := by rw [taken, trail, List.tail_cons]
  · have run := State.exec_loaderOkay d free quiet works outstanding access (.inr rfl)
    have on : (s.lane i).state ≠ .off ∧ (s.lane i).state ≠ .faulted ∧ (s.lane i).state ≠ .blocked := by
      rcases state with state | state | state | ⟨state, -⟩ <;> simp [state]
    rw [State.laneAnswer_status (by exact on.1) (by exact on.2.1), State.statusWritten_of_not_blocked (by exact on.2.2),
      rest, State.laneEnded_of_not] at run
    · refine ⟨_, run, State.lane_setLane_same _ _ _, rfl, rfl, rfl, rfl, rfl, rfl⟩
    · rw [State.lane_setLane_same]
      rcases state with state | state | state | ⟨-, nonempty⟩
      · exact .inl (by simp [taken, state])
      · exact .inl (by simp [taken, state])
      · exact .inl (by simp [taken, state])
      · exact .inr nonempty
  · have run := State.exec_loaderOkay d free quiet works outstanding access (.inr rfl)
    rw [State.laneAnswer_status (by simp [taken, ended]) (by simp [taken, ended]),
      State.statusWritten_of_not_blocked (by simp [taken, ended]), rest, empty,
      State.laneEnded_of_ended (by simp [taken, ended]) (by simp)] at run
    refine ⟨_, run, State.lane_setLane_same _ _ _, ?_, rfl⟩
    simp only [State.lane_setLane_same]
    rfl
  · have run := State.exec_loaderOkay d free quiet works outstanding access (.inr rfl)
    rw [State.laneAnswer_status (by simp [taken, blocked]) (by simp [taken, blocked]),
      (State.statusWritten_of_blocked (by exact blocked) (by exact pending)).1 (by rw [rest]; exact fresh), rest] at run
    exact ⟨_, run, State.lane_setLane_same _ _ _, rfl, rfl⟩
  · have run := State.exec_loaderOkay d free quiet works outstanding access (.inr rfl)
    rw [State.laneAnswer_status (by simp [taken, blocked]) (by simp [taken, blocked]),
      (State.statusWritten_of_blocked (by exact blocked) (by exact pending)).2 (by rw [rest]; exact stands)] at run
    obtain ⟨isFaulted, alert, offered, -⟩ := (s.accessEnded.setLane i
      { s.accessEnded.lane i with trail := (s.accessEnded.lane i).trail.tail }).laneFault_spec i .badNext
        (s.accessEnded.lane i).current
    rw [State.lane_setLane_same] at offered
    exact ⟨_, run, isFaulted, offered, alert⟩

end Sys2Proof.Machine
end

section
/-! PROOFS. A cue read answered (first half of O43): the cue fetched, accepted or held, and where its lane moves on to
(R30 to R32, R38, R43). -/

namespace Sys2Proof.Machine

/-! ## The lane of a fetch (R30, R43) -/

/-- The lane with one more cue fetched, as the rules say it. -/
theorem Lane.fetched_eq (l : Lane) : l.fetched = { l with
    seqCounter := l.seqCounter + 1, fetchIndex := l.fetchIndex + 1
    trail := TrailEntry.atNewest (fun x => { x with fetched := x.fetched + 1 }) l.trail } := by
  simp only [Lane.fetched, changeNewest_eq_atNewest]

theorem Lane.finish_of_trail {l l' : Lane} (newest : l'.trail.getLast?.bind (·.finish) = l.trail.getLast?.bind (·.finish)) :
    l'.finish = l.finish := newest

theorem Lane.fetched_finish (l : Lane) : l.fetched.finish = l.finish := by
  refine Lane.finish_of_trail ?_
  rw [Lane.fetched, getLast?_changeNewest]
  cases l.trail.getLast? <;> rfl

theorem Lane.countRetired_finish (l : Lane) (ref : Word) : (l.countRetired ref).finish = l.finish := by
  refine Lane.finish_of_trail ?_
  rw [Lane.countRetired, List.getLast?_map]
  cases l.trail.getLast? with
  | none => rfl
  | some x =>
    simp only [Option.map_some, Option.bind_some]
    split <;> rfl

/-- A held head is counted at once when every earlier cue of its lane has retired, and stays at the lane head else
(R43). -/
def Lane.holding (l : Lane) (o : HeldOutcome) : Lane :=
  Lane.releaseHeld { l.fetched with head := some { seq := l.seqCounter, trailRef := l.current, body := .held o } }

theorem Lane.holding_of_turn {l : Lane} (o : HeldOutcome) (noHead : l.head = none) (turn : l.cuesRetired = l.seqCounter) :
    l.holding o = { l.fetched with
      cuesRetired := l.cuesRetired + 1
      trail := l.fetched.trail.map fun x =>
        if x.address = l.current then { x with retired := x.retired + 1 } else x } := by
  simp only [Lane.holding, Lane.releaseHeld, Lane.countRetired, Lane.fetched, turn, noHead, if_true]

theorem Lane.holding_of_not_turn {l : Lane} (o : HeldOutcome) (wait : l.cuesRetired ≠ l.seqCounter) :
    l.holding o = { l.fetched with
      head := some { seq := l.seqCounter, trailRef := l.current, body := .held o } } := by
  have later : ¬ l.fetched.cuesRetired = l.seqCounter := wait
  simp only [Lane.holding, Lane.releaseHeld]
  rw [if_neg later]

/-- What moving on reads of a lane, the same before and after. -/
theorem Lane.holding_moves (l : Lane) (o : HeldOutcome) :
    (l.holding o).finish = l.finish ∧ (l.holding o).fetchIndex = l.fetchIndex + 1 ∧ (l.holding o).current = l.current := by
  by_cases turn : l.cuesRetired = l.seqCounter
  · have released : l.holding o = { Lane.countRetired { l.fetched with
        head := some { seq := l.seqCounter, trailRef := l.current, body := .held o } } l.current with head := none } := by
      simp only [Lane.holding, Lane.releaseHeld]
      exact if_pos turn
    rw [released]
    exact ⟨(Lane.countRetired_finish _ _).trans l.fetched_finish, rfl, rfl⟩
  · rw [Lane.holding_of_not_turn o turn]
    exact ⟨l.fetched_finish, rfl, rfl⟩

/-! ## The states of a fetch (R31, R32) -/

theorem State.fetchCue_of_accepted {s : State} {i : LaneId} {d : BusData} {c : Cue} (cue : readCue d = some c)
    (inOrder : (s.lane i).lastDue.toNat ≤ c.due.toNat) : s.fetchCue i d = (s.acceptCue i c).moveOn i := by
  simp only [State.fetchCue, cue]
  rw [if_neg (by omega)]

theorem State.fetchCue_of_order {s : State} {i : LaneId} {d : BusData} {c : Cue} (cue : readCue d = some c)
    (early : c.due.toNat < (s.lane i).lastDue.toNat) :
    s.fetchCue i d = (s.rejectCue i d .order (some c)).moveOn i := by
  simp only [State.fetchCue, cue]
  rw [if_pos early]

theorem State.fetchCue_of_malformed {s : State} {i : LaneId} {d : BusData} (cue : readCue d = none) :
    s.fetchCue i d = (s.rejectCue i d .malformed none).moveOn i := by
  simp only [State.fetchCue, cue]

theorem State.rejectCue_spec (s : State) (i : LaneId) (d : BusData) (o : HeldOutcome) (c : Option Cue) :
    (s.rejectCue i d o c).lane i = (s.lane i).holding o ∧
      (s.rejectCue i d o c).wr = s.wr.offer s.now (rejectReport i (s.lane i).seqCounter d o c s.now) ∧
      (s.rejectCue i d o c).win = { s.win with alert := s.win.alert ||| 0x08 } :=
  ⟨State.lane_setLane_same _ _ _, rfl, rfl⟩

theorem State.acceptCue_lane (s : State) (i : LaneId) (c : Cue) :
    (s.acceptCue i c).lane i = { (s.lane i).fetched with
      head := some { seq := (s.lane i).seqCounter, trailRef := (s.lane i).current, body := .accepted c }
      lastDue := c.due } := State.lane_setLane_same _ _ _

/-- The two bytes a MALFORMED report gives as found (R184). -/
theorem foundBytes_eq (d : BusData) : (byteAt d 0x07 ++ byteAt d 0x06 : Half) = d.extractLsb' 48 16 := by
  apply BitVec.eq_of_getLsbD_eq
  intro n lt
  simp only [byteAt, BitVec.getLsbD_append, BitVec.getLsbD_extractLsb']
  by_cases low : n < 8
  · simp [low, lt]
  · have place : 8 * 0x07 + (n - 8) = 48 + n := by omega
    have inByte : n - 8 < 8 := by omega
    simp [low, lt, place, inByte]

/-! ## Moving on after a fetch (R38) -/

/-- The lane is `l` once a cue is fetched, with this writer and this ALERT: what becomes of it when it moves on, its
segment as it stood in `s`. -/
def State.movesOnTo (s t : State) (i : LaneId) (l : Lane) (w : Writer) (alert : Byte) : Prop :=
  let becomes (l' : Lane) : Prop := t.lane i = l' ∧ t.wr = w ∧ t.win = { s.win with alert := alert }
  ((s.lane i).finish = none → becomes l) ∧
  (∀ f, (s.lane i).finish = some f →
    ((s.lane i).fetchIndex + 1 ≠ f.fill → becomes l) ∧
    ((s.lane i).fetchIndex + 1 = f.fill →
      (f.next = 0 → becomes { l with state := .ended, reread := .absent }) ∧
      (f.next ≠ 0 → 4 ≤ l.trail.length →
        becomes { l with state := .blocked, pendingNext := some f.next, reread := .absent }) ∧
      (f.next ≠ 0 → l.trail.length < 4 → (∀ x ∈ l.trail, x.address ≠ f.next) → becomes (l.entered f.next)) ∧
      (f.next ≠ 0 → l.trail.length < 4 → (∃ x ∈ l.trail, x.address = f.next) →
        (t.lane i).state = .faulted ∧ t.win = { s.win with alert := alert ||| 0x10 } ∧
        t.wr = w.offer s.now (.laneEvent i (.fault .badNext) (s.lane i).current
          (if l.acceptedHead.isSome then 1 else 0) s.now))))

theorem State.movesOnTo_moveOn {s u : State} {i : LaneId} {alert : Byte} (now : u.now = s.now)
    (win : u.win = { s.win with alert := alert }) (finish : (u.lane i).finish = (s.lane i).finish)
    (index : (u.lane i).fetchIndex = (s.lane i).fetchIndex + 1) (current : (u.lane i).current = (s.lane i).current) :
    s.movesOnTo (u.moveOn i) i (u.lane i) u.wr alert := by
  refine ⟨fun unfinished => ?_, fun f finished => ?_⟩
  · rw [State.moveOn_of_unfinished (finish.trans unfinished)]
    exact ⟨rfl, rfl, win⟩
  · obtain ⟨stays, moves⟩ := State.moveOn_of_finished (s := u) (i := i) (finish.trans finished)
    have becomes (l' : Lane) (isLane : u.moveOn i = u.setLane i l') :
        (u.moveOn i).lane i = l' ∧ (u.moveOn i).wr = u.wr ∧ (u.moveOn i).win = { s.win with alert := alert } := by
      rw [isLane]
      exact ⟨State.lane_setLane_same _ _ _, rfl, win⟩
    refine ⟨fun below => ?_, fun used => ?_⟩
    · rw [stays (index ▸ below)]
      exact ⟨rfl, rfl, win⟩
    · obtain ⟨ends, blocks, enters, faults⟩ := moves (index.trans used)
      refine ⟨fun last => becomes _ (ends last), fun more full => becomes _ (blocks more full),
        fun more room fresh => becomes _ (enters more room fresh), fun more room stands => ?_⟩
      rw [faults more room stands, current]
      obtain ⟨faulted, alerted, offered, -⟩ := u.laneFault_spec i .badNext (s.lane i).current
      rw [now] at offered
      rw [win] at alerted
      exact ⟨faulted, alerted, offered⟩

theorem State.laneAnswer_cue {s : State} {i : LaneId} (active : (s.lane i).state = .active) (seg : Word) (d : BusData) :
    s.laneAnswer { lane := i, kind := .cue, segment := seg } (.okay d) = s.fetchCue i d := by
  simp [State.laneAnswer, active]

/-- What a cue read answered OKAY leaves: the lane with its head, the writer with a report, and ALERT, then the lane
moved on. -/
theorem State.fetchCue_spec {s : State} {i : LaneId} (d : BusData) :
    ∃ (l : Lane) (w : Writer) (alert : Byte),
      (∀ c, readCue d = some c →
        ((s.lane i).lastDue.toNat ≤ c.due.toNat → w = s.wr ∧ alert = s.win.alert ∧
          l = { (s.lane i).fetched with
            lastDue := c.due
            head := some { seq := (s.lane i).seqCounter, trailRef := (s.lane i).current, body := .accepted c } }) ∧
        (c.due.toNat < (s.lane i).lastDue.toNat → l = (s.lane i).holding .order ∧ alert = s.win.alert ||| 0x08 ∧
          w = s.wr.offer s.now (rejectReport i (s.lane i).seqCounter d .order (some c) s.now))) ∧
      (readCue d = none → l = (s.lane i).holding .malformed ∧ alert = s.win.alert ||| 0x08 ∧
        w = s.wr.offer s.now (rejectReport i (s.lane i).seqCounter d .malformed none s.now)) ∧
      s.movesOnTo (s.fetchCue i d) i l w alert := by
  have rejected (o : HeldOutcome) (c : Option Cue) (fetched : s.fetchCue i d = (s.rejectCue i d o c).moveOn i) :
      s.movesOnTo (s.fetchCue i d) i ((s.lane i).holding o)
        (s.wr.offer s.now (rejectReport i (s.lane i).seqCounter d o c s.now)) (s.win.alert ||| 0x08) := by
    obtain ⟨lane, wr, win⟩ := s.rejectCue_spec i d o c
    obtain ⟨finish, index, current⟩ := (s.lane i).holding_moves o
    rw [← lane] at finish index current
    have moved := State.movesOnTo_moveOn (s := s) (by simp [State.now]) win finish index current
    rwa [← fetched, lane, wr] at moved
  cases cue : readCue d with
  | none =>
    refine ⟨_, _, _, fun c some => absurd some (by simp), fun _ => ⟨rfl, rfl, rfl⟩, ?_⟩
    exact rejected _ _ (State.fetchCue_of_malformed cue)
  | some c =>
    by_cases early : c.due.toNat < (s.lane i).lastDue.toNat
    · refine ⟨_, _, _, fun c' same => ?_, fun none => absurd none (by simp),
        rejected _ _ (State.fetchCue_of_order cue early)⟩
      obtain rfl := Option.some.inj same
      exact ⟨fun inOrder => absurd early (by omega), fun _ => ⟨rfl, rfl, rfl⟩⟩
    · have inOrder : (s.lane i).lastDue.toNat ≤ c.due.toNat := by omega
      have lane := s.acceptCue_lane i c
      have moved := State.movesOnTo_moveOn (s := s) (u := s.acceptCue i c) (i := i) (alert := s.win.alert)
        (by simp [State.now]) (by simp) (by rw [lane]; exact (s.lane i).fetched_finish) (by rw [lane]; rfl)
        (by rw [lane]; rfl)
      rw [← State.fetchCue_of_accepted cue inOrder, lane] at moved
      refine ⟨_, _, _, fun c' same => ?_, fun none => absurd none (by simp), moved⟩
      obtain rfl := Option.some.inj same
      exact ⟨fun _ => ⟨by simp, rfl, rfl⟩, fun late => absurd late early⟩

end Sys2Proof.Machine
end

section
/-! PROOFS. The cue format (Tables 9-9 to 9-11, R2, R184) and the settling of O43: each verb by its number and its
parameters, once, then the cue of a cue place. -/

namespace Sys2Proof.Machine

/-! ## Bits that are zero -/

theorem ushiftRight_eq_zero_iff {w : Nat} (p : BitVec w) (n : Nat) : p >>> n = 0#w ↔ p.toNat < 2 ^ n := by
  rw [← BitVec.toNat_inj]
  simp [Nat.shiftRight_eq_div_pow, Nat.div_eq_zero_iff]

theorem zeroFrom_iff {w : Nat} (p : BitVec w) (off : Nat) : zeroFrom p off = true ↔ p.toNat < 2 ^ (8 * off) := by
  simp only [zeroFrom, beq_iff_eq]
  exact ushiftRight_eq_zero_iff p (8 * off)

/-- The topmost bits are zero. -/
theorem extractTop_eq_zero_iff {w lo n : Nat} (p : BitVec w) (top : lo + n = w) :
    p.extractLsb' lo n = 0 ↔ p.toNat < 2 ^ lo := by
  have small : p.toNat / 2 ^ lo < 2 ^ n := by
    rw [Nat.div_lt_iff_lt_mul (by positivity), ← pow_add, Nat.add_comm n lo, top]
    exact p.isLt
  rw [← BitVec.toNat_inj]
  simp [BitVec.extractLsb'_toNat, Nat.shiftRight_eq_div_pow, Nat.mod_eq_of_lt small]

/-- The upper bits of one byte and the whole of the next. -/
theorem upperBits_eq_zero_iff {w : Nat} (d : BitVec w) (off k : Nat) (inByte : k ≤ 8) :
    (byteAt d off >>> k = 0 ∧ byteAt d (off + 1) = 0) ↔ d.extractLsb' (8 * off + k) (16 - k) = 0 := by
  have next : d.toNat / 2 ^ (8 * (off + 1)) = d.toNat / 2 ^ (8 * off) / 256 := by
    rw [Nat.div_div_eq_div_mul, show 8 * (off + 1) = 8 * off + 8 by ring, pow_add]
    norm_num
  simp only [← BitVec.toNat_inj, byteAt, BitVec.toNat_ushiftRight, BitVec.extractLsb'_toNat, Nat.shiftRight_eq_div_pow,
    BitVec.ofNat_eq_ofNat, BitVec.toNat_ofNat, Nat.zero_mod, next, pow_add, ← Nat.div_div_eq_div_mul]
  generalize d.toNat / 2 ^ (8 * off) = x
  interval_cases k <;> norm_num <;> omega

/-! ## The verbs of each target (Tables 1-2, 9-10, 9-11) -/

/-- The verb number and parameters that spell a channel verb. -/
def ChanVerb.spelt (verb : Byte) (p : BitVec 160) : ChanVerb → Prop
  | .set r => verb.toNat = 1 ∧ r = p ∧ p.extractLsb' (8 * 0x12) 16 = 0
  | .start => verb.toNat = 2 ∧ p = 0
  | .stop => verb.toNat = 3 ∧ p = 0
  | .pause => verb.toNat = 4 ∧ p = 0
  | .resume => verb.toNat = 5 ∧ p = 0
  | .stage m => verb.toNat = 6 ∧ stageMarks p = some m
  | .fire => verb.toNat = 7 ∧ p = 0
  | .snapshot => verb.toNat = 8 ∧ p = 0

theorem zeroFrom_twelve (p : BitVec 160) : zeroFrom p 0x12 = true ↔ p.extractLsb' (8 * 0x12) 16 = 0 := by
  rw [zeroFrom_iff, extractTop_eq_zero_iff p (by norm_num)]

/-- A verb without parameters. -/
theorem eq_of_ifZero {α : Type} {v v' : α} {p : BitVec 160} (h : (if p = 0 then some v' else none) = some v) :
    v = v' ∧ p = 0 := by
  simp only [Option.ite_none_right_eq_some, Option.some.injEq] at h
  exact ⟨h.2.symm, h.1⟩

theorem chanVerbOf_eq_some_iff (verb : Byte) (p : BitVec 160) (v : ChanVerb) :
    chanVerbOf verb p = some v ↔ v.spelt verb p := by
  constructor
  · intro h
    unfold chanVerbOf at h
    split at h
    · next n =>
      simp only [Option.ite_none_right_eq_some, Option.some.injEq] at h
      obtain ⟨top, rfl⟩ := h
      exact ⟨n, rfl, (zeroFrom_twelve p).mp top⟩
    · next n => obtain ⟨rfl, zero⟩ := eq_of_ifZero h; exact ⟨n, zero⟩
    · next n => obtain ⟨rfl, zero⟩ := eq_of_ifZero h; exact ⟨n, zero⟩
    · next n => obtain ⟨rfl, zero⟩ := eq_of_ifZero h; exact ⟨n, zero⟩
    · next n => obtain ⟨rfl, zero⟩ := eq_of_ifZero h; exact ⟨n, zero⟩
    · next n =>
      obtain ⟨m, marks, rfl⟩ := Option.map_eq_some_iff.mp h
      exact ⟨n, marks⟩
    · next n => obtain ⟨rfl, zero⟩ := eq_of_ifZero h; exact ⟨n, zero⟩
    · next n => obtain ⟨rfl, zero⟩ := eq_of_ifZero h; exact ⟨n, zero⟩
    · cases h
  · cases v with
    | set r =>
      rintro ⟨n, rfl, top⟩
      simp only [chanVerbOf, n, (zeroFrom_twelve r).mpr top, if_true]
    | stage m =>
      rintro ⟨n, marks⟩
      simp only [chanVerbOf, n, marks, Option.map_some]
    | start | stop | pause | resume | fire | snapshot =>
      rintro ⟨n, zero⟩
      simp only [chanVerbOf, n, zero, if_true]

/-- The verb number and parameters that spell a Converter verb. -/
def ConvVerb.spelt (verb : Byte) (p : BitVec 160) : ConvVerb → Prop
  | .powerOn => verb.toNat = 1 ∧ p = 0
  | .powerOff => verb.toNat = 2 ∧ p = 0
  | .reference .supply => verb.toNat = 3 ∧ p = 0
  | .reference .vrefPin => verb.toNat = 3 ∧ p = 1
  | .convert mask => verb.toNat = 4 ∧ p ≠ 0 ∧ p.toNat < 2 ^ 10 ∧ mask = p.setWidth 10

theorem convVerbOf_eq_some_iff (verb : Byte) (p : BitVec 160) (v : ConvVerb) :
    convVerbOf verb p = some v ↔ v.spelt verb p := by
  have mask : (p >>> 10 == 0 && p != 0) = true ↔ p ≠ 0 ∧ p.toNat < 2 ^ 10 := by
    rw [Bool.and_eq_true, beq_iff_eq, bne_iff_ne, and_comm]
    exact and_congr_right fun _ => ushiftRight_eq_zero_iff p 10
  constructor
  · intro h
    unfold convVerbOf at h
    split at h
    · next n => obtain ⟨rfl, zero⟩ := eq_of_ifZero h; exact ⟨n, zero⟩
    · next n => obtain ⟨rfl, zero⟩ := eq_of_ifZero h; exact ⟨n, zero⟩
    · next n =>
      split at h
      · next zero => obtain rfl := Option.some.inj h; exact ⟨n, zero⟩
      · split at h
        · next one => obtain rfl := Option.some.inj h; exact ⟨n, one⟩
        · cases h
    · next n =>
      simp only [Option.ite_none_right_eq_some, Option.some.injEq] at h
      obtain ⟨inMask, rfl⟩ := h
      obtain ⟨notZero, small⟩ := mask.mp inMask
      exact ⟨n, notZero, small, rfl⟩
    · cases h
  · cases v with
    | powerOn | powerOff =>
      rintro ⟨n, zero⟩
      simp only [convVerbOf, n, zero, if_true]
    | reference r =>
      cases r with
      | supply =>
        rintro ⟨n, zero⟩
        simp only [convVerbOf, n, zero, if_true]
      | vrefPin =>
        rintro ⟨n, one⟩
        simp [convVerbOf, n, one]
    | convert m =>
      rintro ⟨n, notZero, small, rfl⟩
      simp only [convVerbOf, n, mask.mpr ⟨notZero, small⟩, if_true]

/-- The verb number, flag and parameters that spell a verb of Engine Control. -/
def EngVerb.spelt (verb : Byte) (payload : Bool) (p : BitVec 160) : EngVerb → Prop
  | .note n => verb.toNat = 1 ∧ p.toNat < 2 ^ 128 ∧ (payload = false → p = 0) ∧ n = p.setWidth 128
  | .closePage => verb.toNat = 2 ∧ p = 0
  | .endCue => verb.toNat = 3 ∧ p = 0

theorem engVerbOf_eq_some_iff (verb : Byte) (payload : Bool) (p : BitVec 160) (v : EngVerb) :
    engVerbOf verb payload p = some v ↔ v.spelt verb payload p := by
  have note : (zeroFrom p 0x10 && (payload || p == 0)) = true ↔ p.toNat < 2 ^ 128 ∧ (payload = false → p = 0) := by
    rw [Bool.and_eq_true, zeroFrom_iff]
    cases payload <;> simp
  constructor
  · intro h
    unfold engVerbOf at h
    split at h
    · next n =>
      simp only [Option.ite_none_right_eq_some, Option.some.injEq] at h
      obtain ⟨good, rfl⟩ := h
      obtain ⟨small, noPayload⟩ := note.mp good
      exact ⟨n, small, noPayload, rfl⟩
    · next n => obtain ⟨rfl, zero⟩ := eq_of_ifZero h; exact ⟨n, zero⟩
    · next n => obtain ⟨rfl, zero⟩ := eq_of_ifZero h; exact ⟨n, zero⟩
    · cases h
  · cases v with
    | note m =>
      rintro ⟨n, small, noPayload, rfl⟩
      simp only [engVerbOf, n, note.mpr ⟨small, noPayload⟩, if_true]
    | closePage | endCue =>
      rintro ⟨n, zero⟩
      simp only [engVerbOf, n, zero, if_true]

/-! ## The marks of a STAGE cue -/

/-- The parameters a STAGE cue may have. -/
def stageFits (p : BitVec 160) : Prop :=
  p.extractLsb' 2 14 = 0 ∧ p.extractLsb' (8 * 0x06) 112 = 0 ∧ (p.getLsbD 0 = true ∨ p.getLsbD 1 = true) ∧
    (p.getLsbD 0 = false → p.extractLsb' (8 * 0x02) 16 = 0) ∧ (p.getLsbD 1 = false → p.extractLsb' (8 * 0x04) 16 = 0)

/-- The marks it stages. -/
def stagedMarks (p : BitVec 160) : Marks :=
  { period := if p.getLsbD 0 then some (p.extractLsb' (8 * 0x02) 16) else none
    action := if p.getLsbD 1 then some (p.extractLsb' (8 * 0x04) 16) else none }

theorem stageMarks_eq_some_iff (p : BitVec 160) (m : Marks) :
    stageMarks p = some m ↔ stageFits p ∧ m = stagedMarks p := by
  have bit0 : (byteAt p 0x00).getLsbD 0 = p.getLsbD 0 := by simp [byteAt]
  have bit1 : (byteAt p 0x00).getLsbD 1 = p.getLsbD 1 := by simp [byteAt]
  have upper : (byteAt p 0x00 >>> 2 = 0 ∧ byteAt p 0x01 = 0) ↔ p.extractLsb' 2 14 = 0 :=
    upperBits_eq_zero_iff p 0 2 (by norm_num)
  have rest : zeroFrom p 0x06 = true ↔ p.extractLsb' (8 * 0x06) 112 = 0 := by
    rw [zeroFrom_iff, extractTop_eq_zero_iff p (by norm_num)]
  have fits : ((byteAt p 0x00 >>> 2 == 0) && byteAt p 0x01 == 0 && zeroFrom p 0x06 && (p.getLsbD 0 || p.getLsbD 1)
      && (p.getLsbD 0 || halfAt p 0x02 == 0) && (p.getLsbD 1 || halfAt p 0x04 == 0)) = true ↔ stageFits p := by
    simp only [stageFits, ← upper, ← rest, Bool.and_eq_true, Bool.or_eq_true, beq_iff_eq, and_assoc, halfAt]
    cases p.getLsbD 0 <;> cases p.getLsbD 1 <;> simp
  simp only [stageMarks, bit0, bit1, Option.ite_none_right_eq_some, Option.some.injEq, fits]
  exact and_congr_right fun _ => eq_comm

/-! ## Actions and cues -/

/-- The target, verb and parameters that spell an action. -/
def Action.spelt (target verb : Byte) (payload : Bool) (p : BitVec 160) : Action → Prop
  | .channel ch v => target.toNat = ch.val ∧ v.spelt verb p
  | .converter v => target.toNat = 16 ∧ v.spelt verb p
  | .engine v => target.toNat = 17 ∧ v.spelt verb payload p

theorem actionOf_eq_some_iff (target verb : Byte) (payload : Bool) (p : BitVec 160) (a : Action) :
    actionOf target verb payload p = some a ↔ a.spelt target verb payload p := by
  constructor
  · intro h
    unfold actionOf at h
    split at h
    · obtain ⟨v, isVerb, rfl⟩ := Option.map_eq_some_iff.mp h
      exact ⟨rfl, (chanVerbOf_eq_some_iff verb p v).mp isVerb⟩
    · split at h
      · next n =>
        obtain ⟨v, isVerb, rfl⟩ := Option.map_eq_some_iff.mp h
        exact ⟨n, (convVerbOf_eq_some_iff verb p v).mp isVerb⟩
      · split at h
        · next n =>
          obtain ⟨v, isVerb, rfl⟩ := Option.map_eq_some_iff.mp h
          exact ⟨n, (engVerbOf_eq_some_iff verb payload p v).mp isVerb⟩
        · cases h
  · cases a with
    | channel ch v =>
      rintro ⟨n, isVerb⟩
      have small : target.toNat < 16 := by omega
      have isChannel : (⟨target.toNat, small⟩ : ChanId) = ch := Fin.ext n
      unfold actionOf
      rw [dif_pos small, (chanVerbOf_eq_some_iff verb p v).mpr isVerb, isChannel, Option.map_some]
    | converter v =>
      rintro ⟨n, isVerb⟩
      unfold actionOf
      rw [dif_neg (by omega), if_pos n, (convVerbOf_eq_some_iff verb p v).mpr isVerb, Option.map_some]
    | engine v =>
      rintro ⟨n, isVerb⟩
      unfold actionOf
      rw [dif_neg (by omega), if_neg (by omega), if_pos n, (engVerbOf_eq_some_iff verb payload p v).mpr isVerb,
        Option.map_some]

/-- NOTE is verb 1 of target 17. -/
theorem Action.isNote_iff {target verb : Byte} {payload : Bool} {p : BitVec 160} {a : Action}
    (spelt : a.spelt target verb payload p) : a.isNote = true ↔ target.toNat = 17 ∧ verb.toNat = 1 := by
  cases a with
  | channel ch v =>
    obtain ⟨n, -⟩ := spelt
    simp only [Action.isNote, Bool.false_eq_true, false_iff]
    omega
  | converter v =>
    obtain ⟨n, -⟩ := spelt
    simp only [Action.isNote, Bool.false_eq_true, false_iff]
    omega
  | engine v =>
    obtain ⟨n, isVerb⟩ := spelt
    cases v with
    | note m => exact ⟨fun _ => ⟨n, isVerb.1⟩, fun _ => rfl⟩
    | closePage | endCue =>
      obtain ⟨number, -⟩ := isVerb
      simp only [Action.isNote, Bool.false_eq_true, false_iff]
      omega

/-- The parameters of a cue place. -/
def cueParams (d : BusData) : BitVec 160 := d.extractLsb' (8 * 0x0C) 160

/-- The cue of a cue place, its action aside (Table 9-9). -/
def cueOf (d : BusData) (a : Action) : Cue :=
  { due := tickAt d 0x00, action := a, tag := halfAt d 0x08
    late := if d.getLsbD (8 * 0x0A) then .skip else .runLate
    report := d.getLsbD (8 * 0x0A + 1), payloadPresent := d.getLsbD (8 * 0x0A + 2) }

theorem readCue_eq_some_iff (d : BusData) (c : Cue) :
    readCue d = some c ↔
      d.extractLsb' (8 * 0x0A + 3) 13 = 0 ∧
      c.action.spelt (byteAt d 0x06) (byteAt d 0x07) (d.getLsbD (8 * 0x0A + 2)) (cueParams d) ∧
      (d.getLsbD (8 * 0x0A + 2) = true → (byteAt d 0x06).toNat = 17 ∧ (byteAt d 0x07).toNat = 1) ∧
      c = cueOf d c.action := by
  have bit (n : Nat) (lt : n < 8) : (byteAt d 0x0A).getLsbD n = d.getLsbD (8 * 0x0A + n) := by
    simp [byteAt, lt]
  have upper : (byteAt d 0x0A >>> 3 = 0 ∧ byteAt d 0x0B = 0) ↔ d.extractLsb' (8 * 0x0A + 3) 13 = 0 :=
    upperBits_eq_zero_iff d 0x0A 3 (by norm_num)
  have bits : (byteAt d 0x0A).getLsbD 0 = d.getLsbD (8 * 0x0A) ∧ (byteAt d 0x0A).getLsbD 1 = d.getLsbD (8 * 0x0A + 1) ∧
      (byteAt d 0x0A).getLsbD 2 = d.getLsbD (8 * 0x0A + 2) :=
    ⟨bit 0 (by norm_num), bit 1 (by norm_num), bit 2 (by norm_num)⟩
  have unfolded : readCue d = match actionOf (byteAt d 0x06) (byteAt d 0x07) (d.getLsbD (8 * 0x0A + 2)) (cueParams d) with
      | some action =>
        if byteAt d 0x0A >>> 3 == 0 && byteAt d 0x0B == 0 && (!d.getLsbD (8 * 0x0A + 2) || action.isNote) then
          some (cueOf d action)
        else none
      | none => none := by
    obtain ⟨bit0, bit1, bit2⟩ := bits
    unfold cueOf
    rw [← bit0, ← bit1, ← bit2] <;> rfl
  rw [unfolded, ← upper]
  cases action : actionOf (byteAt d 0x06) (byteAt d 0x07) (d.getLsbD (8 * 0x0A + 2)) (cueParams d) with
  | none =>
    simp only [reduceCtorEq, false_iff]
    rintro ⟨-, spelt, -⟩
    rw [← actionOf_eq_some_iff, action] at spelt
    cases spelt
  | some a =>
    have spelt := (actionOf_eq_some_iff _ _ _ _ a).mp action
    have isNote : (!d.getLsbD (8 * 0x0A + 2) || a.isNote) = true ↔
        (d.getLsbD (8 * 0x0A + 2) = true → (byteAt d 0x06).toNat = 17 ∧ (byteAt d 0x07).toNat = 1) := by
      rw [← Action.isNote_iff spelt]
      cases d.getLsbD (8 * 0x0A + 2) <;> simp
    simp only [Option.ite_none_right_eq_some, Option.some.injEq, Bool.and_eq_true, beq_iff_eq, isNote]
    constructor
    · rintro ⟨⟨zero, note⟩, rfl⟩
      exact ⟨zero, spelt, note, rfl⟩
    · rintro ⟨zero, speltC, note, isCue⟩
      have same : a = c.action := by
        rw [← actionOf_eq_some_iff, action] at speltC
        exact Option.some.inj speltC
      exact ⟨⟨zero, note⟩, by rw [same, ← isCue]⟩

end Sys2Proof.Machine
end

section
/-! PROOFS. The forms a cue can have, what its fields are then, and the settling of O43 (R2, R184). -/

namespace Sys2Proof.Machine

/-- The targets, verbs and parameters of Table 9-10 and 9-11. -/
def cueForm (target verb : Nat) (payload : Bool) (p : BitVec 160) : Prop :=
  (target < 16 ∧ verb = 1 ∧ p.extractLsb' (8 * 0x12) 16 = 0) ∨
  (target < 16 ∧ 2 ≤ verb ∧ verb ≤ 8 ∧ verb ≠ 6 ∧ p = 0) ∨
  (target < 16 ∧ verb = 6 ∧ stageFits p) ∨
  (target = 16 ∧ (verb = 1 ∨ verb = 2) ∧ p = 0) ∨ (target = 16 ∧ verb = 3 ∧ (p = 0 ∨ p = 1)) ∨
  (target = 16 ∧ verb = 4 ∧ p ≠ 0 ∧ p.toNat < 2 ^ 10) ∨
  (target = 17 ∧ verb = 1 ∧ p.toNat < 2 ^ 128 ∧ (payload = false → p = 0)) ∨
  (target = 17 ∧ (verb = 2 ∨ verb = 3) ∧ p = 0)

theorem ChanVerb.exists_spelt {verb : Byte} {p : BitVec 160} (form : 2 ≤ verb.toNat ∧ verb.toNat ≤ 8 ∧ verb.toNat ≠ 6)
    (zero : p = 0) : ∃ v : ChanVerb, v.spelt verb p := by
  obtain ⟨low, high, notStage⟩ := form
  have cases : verb.toNat = 2 ∨ verb.toNat = 3 ∨ verb.toNat = 4 ∨ verb.toNat = 5 ∨ verb.toNat = 7 ∨ verb.toNat = 8 := by
    omega
  rcases cases with n | n | n | n | n | n
  · exact ⟨.start, n, zero⟩
  · exact ⟨.stop, n, zero⟩
  · exact ⟨.pause, n, zero⟩
  · exact ⟨.resume, n, zero⟩
  · exact ⟨.fire, n, zero⟩
  · exact ⟨.snapshot, n, zero⟩

/-- Every action has one of the forms. -/
theorem cueForm_of_spelt {target verb : Byte} {payload : Bool} {p : BitVec 160} {a : Action}
    (spelt : a.spelt target verb payload p) : cueForm target.toNat verb.toNat payload p := by
  cases a with
  | channel ch v =>
    obtain ⟨n, isVerb⟩ := spelt
    have small : target.toNat < 16 := by omega
    cases v with
    | set r => exact .inl ⟨small, isVerb.1, isVerb.2.2⟩
    | stage m => exact .inr (.inr (.inl ⟨small, isVerb.1, ((stageMarks_eq_some_iff p m).mp isVerb.2).1⟩))
    | start | stop | pause | resume | fire | snapshot =>
      obtain ⟨number, zero⟩ := isVerb
      exact .inr (.inl ⟨small, by omega, by omega, by omega, zero⟩)
  | converter v =>
    obtain ⟨n, isVerb⟩ := spelt
    cases v with
    | powerOn => exact .inr (.inr (.inr (.inl ⟨n, .inl isVerb.1, isVerb.2⟩)))
    | powerOff => exact .inr (.inr (.inr (.inl ⟨n, .inr isVerb.1, isVerb.2⟩)))
    | reference r =>
      cases r with
      | supply => exact .inr (.inr (.inr (.inr (.inl ⟨n, isVerb.1, .inl isVerb.2⟩))))
      | vrefPin => exact .inr (.inr (.inr (.inr (.inl ⟨n, isVerb.1, .inr isVerb.2⟩))))
    | convert m => exact .inr (.inr (.inr (.inr (.inr (.inl ⟨n, isVerb.1, isVerb.2.1, isVerb.2.2.1⟩)))))
  | engine v =>
    obtain ⟨n, isVerb⟩ := spelt
    cases v with
    | note m => exact .inr (.inr (.inr (.inr (.inr (.inr (.inl ⟨n, isVerb.1, isVerb.2.1, isVerb.2.2.1⟩))))))
    | closePage => exact .inr (.inr (.inr (.inr (.inr (.inr (.inr ⟨n, .inl isVerb.1, isVerb.2⟩))))))
    | endCue => exact .inr (.inr (.inr (.inr (.inr (.inr (.inr ⟨n, .inr isVerb.1, isVerb.2⟩))))))

/-- Each form spells an action. -/
theorem exists_spelt_of_cueForm {target verb : Byte} {payload : Bool} {p : BitVec 160}
    (form : cueForm target.toNat verb.toNat payload p) : ∃ a : Action, a.spelt target verb payload p := by
  rcases form with ⟨small, n, top⟩ | ⟨small, low, high, notStage, zero⟩ | ⟨small, n, fits⟩ | ⟨t, n | n, zero⟩ |
    ⟨t, n, zero | one⟩ | ⟨t, n, notZero, inMask⟩ | ⟨t, n, short, noPayload⟩ | ⟨t, n | n, zero⟩
  · exact ⟨.channel ⟨target.toNat, small⟩ (.set p), rfl, n, rfl, top⟩
  · obtain ⟨v, isVerb⟩ := ChanVerb.exists_spelt ⟨low, high, notStage⟩ zero
    exact ⟨.channel ⟨target.toNat, small⟩ v, rfl, isVerb⟩
  · exact ⟨.channel ⟨target.toNat, small⟩ (.stage (stagedMarks p)), rfl, n,
      (stageMarks_eq_some_iff p _).mpr ⟨fits, rfl⟩⟩
  · exact ⟨.converter .powerOn, t, n, zero⟩
  · exact ⟨.converter .powerOff, t, n, zero⟩
  · exact ⟨.converter (.reference .supply), t, n, zero⟩
  · exact ⟨.converter (.reference .vrefPin), t, n, one⟩
  · exact ⟨.converter (.convert (p.setWidth 10)), t, n, notZero, inMask, rfl⟩
  · exact ⟨.engine (.note (p.setWidth 128)), t, n, short, noPayload, rfl⟩
  · exact ⟨.engine .closePage, t, n, zero⟩
  · exact ⟨.engine .endCue, t, n, zero⟩

/-- The action code counts the verbs of a target (R184). -/
theorem Action.toNat_code {target verb : Byte} {payload : Bool} {p : BitVec 160} {a : Action}
    (spelt : a.spelt target verb payload p) :
    a.code.toNat = (if target.toNat < 16 then 8 * target.toNat else 0x80 + 8 * (target.toNat - 16)) + verb.toNat - 1 := by
  cases a with
  | channel ch v =>
    obtain ⟨n, isVerb⟩ := spelt
    have small : target.toNat < 16 := by omega
    have number := ch.isLt
    rw [if_pos small, n]
    cases v with
    | set r | stage m | start | stop | pause | resume | fire | snapshot =>
      have verbNumber := isVerb.1
      simp only [Action.code, BitVec.toNat_ofNat, verbNumber]
      omega
  | converter v =>
    obtain ⟨n, isVerb⟩ := spelt
    cases v with
    | powerOn | powerOff | convert m => simp [Action.code, n, isVerb.1]
    | reference r => cases r <;> simp [Action.code, n, isVerb.1]
  | engine v =>
    obtain ⟨n, isVerb⟩ := spelt
    cases v <;> simp [Action.code, n, isVerb.1]

/-- Settles O43: a cue read answered, and what the bytes of a cue place say. -/
theorem cueFetched : Obligations.CueFetched := by
  refine ⟨fun s i seg rq k g d free quiet noReset takes outstanding access active noHead => ?_, fun d => ?_⟩
  · intro fetched held
    have run := State.exec_loaderOkay d free quiet (State.loaderWorks_of_takesCues takes) outstanding access (.inl noReset)
    rw [State.laneAnswer_cue (by exact active)] at run
    have isFetched : (s.lane i).fetched = fetched := (s.lane i).fetched_eq
    have isHeld (o : HeldOutcome) : (s.lane i).holding o = held o := by
      by_cases turn : (s.lane i).cuesRetired = (s.lane i).seqCounter
      · rw [Lane.holding_of_turn o noHead turn, isFetched]
        exact (if_pos turn).symm
      · rw [Lane.holding_of_not_turn o turn, isFetched]
        exact (if_neg turn).symm
    obtain ⟨l, w, alert, cue, malformed, moves⟩ := State.fetchCue_spec (s := s.accessEnded) (i := i) d
    refine ⟨_, l, w, alert, run, fun c isCue => ⟨fun inOrder => ?_, fun early => ?_⟩, fun noCue => ?_, moves,
      by simp [State.accessEnded]⟩
    · obtain ⟨sameWriter, sameAlert, lane⟩ := (cue c isCue).1 inOrder
      exact ⟨sameWriter, sameAlert, lane.trans (by rw [← isFetched]; rfl)⟩
    · obtain ⟨lane, alerted, offered⟩ := (cue c isCue).2 early
      exact ⟨lane.trans (isHeld .order), alerted, offered⟩
    · obtain ⟨lane, alerted, offered⟩ := malformed noCue
      rw [← foundBytes_eq]
      exact ⟨lane.trans (isHeld .malformed), alerted, offered⟩
  · intro target verb payload params hasP hasA
    refine ⟨⟨fun ⟨c, isCue⟩ => ?_, fun ⟨zero, note, form⟩ => ?_⟩, fun c isCue => ?_⟩
    · obtain ⟨zero, spelt, note, -⟩ := (readCue_eq_some_iff d c).mp isCue
      exact ⟨zero, note, cueForm_of_spelt spelt⟩
    · obtain ⟨a, spelt⟩ := exists_spelt_of_cueForm (target := byteAt d 0x06) (verb := byteAt d 0x07) form
      exact ⟨_, (readCue_eq_some_iff d (cueOf d a)).mpr ⟨zero, spelt, note, rfl⟩⟩
    · obtain ⟨-, spelt, -, isRead⟩ := (readCue_eq_some_iff d c).mp isCue
      have code := Action.toNat_code spelt
      rw [isRead]
      refine ⟨rfl, rfl, ?_, rfl, rfl, code, ?_⟩
      · unfold cueOf
        cases d.getLsbD (8 * 0x0A) <;> simp
      · unfold cueOf
        dsimp only
        generalize c.action = a at spelt
        cases a with
        | channel ch v =>
          obtain ⟨n, isVerb⟩ := spelt
          refine ⟨n, ?_⟩
          cases v with
          | set r => exact ⟨isVerb.1, isVerb.2.1⟩
          | stage m =>
            obtain rfl := ((stageMarks_eq_some_iff _ m).mp isVerb.2).2
            exact ⟨isVerb.1, rfl, rfl⟩
          | start | stop | pause | resume | fire | snapshot => exact isVerb.1
        | converter v =>
          obtain ⟨n, isVerb⟩ := spelt
          refine ⟨n, ?_⟩
          cases v with
          | powerOn | powerOff => exact isVerb.1
          | reference r =>
            cases r with
            | supply => exact ⟨isVerb.1, congrArg BitVec.toNat isVerb.2⟩
            | vrefPin => exact ⟨isVerb.1, congrArg BitVec.toNat isVerb.2⟩
          | convert m =>
            obtain ⟨number, -, inMask, rfl⟩ := isVerb
            exact ⟨number, (BitVec.toNat_setWidth _ _).trans (Nat.mod_eq_of_lt inMask)⟩
        | engine v =>
          obtain ⟨n, isVerb⟩ := spelt
          refine ⟨n, ?_⟩
          cases v with
          | note m =>
            obtain ⟨number, short, -, rfl⟩ := isVerb
            exact ⟨number, (BitVec.toNat_setWidth _ _).trans (Nat.mod_eq_of_lt short)⟩
          | closePage | endCue => exact isVerb.1

end Sys2Proof.Machine
end

section
/-! PROOFS. Records offered, and the bytes of each kind of record, of the FAULT record and of the page header (O45): every
layout is a list of parts of numeral lengths, so each slice computes, and a slice is read back as a number once. -/

namespace Sys2Proof.Machine

/-! ## Records offered (R125, R135) -/

/-- A nonempty queue whose head fits the page, or whose writer is busy, brings on no close. -/
theorem Writer.decideClose_of_offered {w : Writer} {x : Item} {rest : List Item} (now : Tick) (queue : w.queue = x :: rest)
    (stays : w.state ≠ .opened ∨ w.task ≠ .none ∨
      ∀ p r, w.page = some p → x = .record r → p.nextFree + recLength r ≤ p.size.toNat) : w.decideClose now = w := by
  rcases stays with notOpened | busy | fits
  · unfold Writer.decideClose
    split
    · contradiction
    · rfl
  · exact Writer.decideClose_of_busy now busy
  · cases x with
    | record r =>
      cases page : w.page with
      | none =>
        unfold Writer.decideClose
        simp only [page]
        split <;> simp_all
      | some p => exact Writer.decideClose_of_fits now page queue (fits p r page rfl)
    | closeMarker m => exact Writer.decideClose_of_marker now queue (.inr ⟨m, rfl⟩)
    | endMarker => exact Writer.decideClose_of_marker now queue (.inl rfl)

theorem Writer.offer_of_place {w : Writer} (now : Tick) (r : Rec) (keeps : w.keeps = true) (room : w.queue.length < 32) :
    w.offer now r = Writer.decideClose { w with queue := w.queue ++ [.record r] } now := by
  have place : w.hasPlace = true := decide_eq_true room
  simp only [Writer.offer, keeps, place, Bool.and_self, if_true]

theorem Writer.offer_of_no_place {w : Writer} (now : Tick) (r : Rec) (full : w.keeps = false ∨ 32 ≤ w.queue.length) :
    w.offer now r = w.lose 1 := by
  unfold Writer.offer
  rw [if_neg]
  rw [Bool.and_eq_true]
  rintro ⟨keeps, place⟩
  have room : w.queue.length < 32 := of_decide_eq_true place
  rcases full with notKept | full
  · simp [notKept] at keeps
  · omega

/-- The first half of O45. -/
theorem exec_recordOffer_spec (s : State) (r : Rec) (free : s.free) :
    (s.wr.keeps = true → s.wr.queue.length < 32 →
      let w : Writer := { s.wr with queue := s.wr.queue ++ [.record r] }
      (∀ (p : Page) (x : Rec) (rest : List Item), s.wr.state = .opened → s.wr.page = some p → s.wr.task = .none →
        w.queue = .record x :: rest → p.size.toNat < p.nextFree + recLength x →
        exec (.recordOffer r) s = .next { s with wr := { w with
          closeSeq := s.wr.closeSeq + 1, deadlineDue := false,
          task := .header { cause := .full, seq := s.wr.closeSeq + 1, time := s.now, lost := s.wr.lost,
                            marker := none } } }) ∧
      ((s.wr.state ≠ .opened ∨ s.wr.task ≠ .none ∨
          ∀ (p : Page) (x : Rec) (rest : List Item), s.wr.page = some p → w.queue = .record x :: rest →
            p.nextFree + recLength x ≤ p.size.toNat) →
        exec (.recordOffer r) s = .next { s with wr := w })) ∧
    (s.wr.keeps = false ∨ 32 ≤ s.wr.queue.length → ∃ t, exec (.recordOffer r) s = .next t ∧
      t.wr.lost.toNat = min (2 ^ 32 - 1) (s.wr.lost.toNat + 1) ∧
      t = { s with wr := { s.wr with lost := t.wr.lost } }) := by
  refine ⟨fun keeps room => ?_, fun full => ?_⟩
  · intro w
    have run : exec (.recordOffer r) s = .next { s with wr := w.decideClose s.now } := by
      rw [exec_recordOffer r s free, State.offer, Writer.offer_of_place _ _ keeps room]
    refine ⟨fun p x rest opened page task queue full => ?_, fun stays => ?_⟩
    · rw [run, Writer.decideClose_of_full s.now (by exact task) (by exact opened) (by exact page) queue full]
      rfl
    · have unchanged : w.decideClose s.now = w := by
        obtain ⟨x, rest, queue⟩ : ∃ x rest, w.queue = x :: rest := List.exists_cons_of_ne_nil (by simp [w])
        refine Writer.decideClose_of_offered s.now queue ?_
        rcases stays with notOpened | busy | fits
        · exact .inl notOpened
        · exact .inr (.inl busy)
        · refine .inr (.inr fun p y page isRecord => fits p y rest page ?_)
          rw [queue, isRecord]
      rw [run, unchanged]
  · rw [exec_recordOffer r s free, State.offer, Writer.offer_of_no_place _ _ full]
    exact ⟨_, rfl, satAdd_toNat _ _, rfl⟩

/-! ## Fields read back -/

theorem fieldOf_of_le {b : List Byte} {off n w : Nat} {v : BitVec w} (slice : (b.drop off).take n = le n v) :
    fieldOf b off n = v.toNat % 2 ^ (8 * n) := by
  rw [fieldOf, slice, bytesNat_le]

/-- A field that holds the whole value. -/
theorem fieldOf_of_le_whole {b : List Byte} {off n w : Nat} {v : BitVec w} (slice : (b.drop off).take n = le n v)
    (whole : w ≤ 8 * n) : fieldOf b off n = v.toNat := by
  rw [fieldOf_of_le slice]
  exact Nat.mod_eq_of_lt (v.isLt.trans_le (Nat.pow_le_pow_right (by norm_num) whole))

theorem fieldOf_of_byte {b : List Byte} {off : Nat} {x : Byte} (slice : (b.drop off).take 1 = [x]) :
    fieldOf b off 1 = x.toNat := by
  simp [fieldOf, slice, bytesNat]

/-- A byte given by a number that it holds. -/
theorem fieldOf_of_number {b : List Byte} {off n : Nat} (slice : (b.drop off).take 1 = [BitVec.ofNat 8 n])
    (small : n < 256) : fieldOf b off 1 = n := by
  rw [fieldOf_of_byte slice, BitVec.toNat_ofNat, Nat.mod_eq_of_lt small]

theorem fieldOf_of_zeros {b : List Byte} {off n : Nat} (slice : (b.drop off).take n = zeros n) : fieldOf b off n = 0 := by
  rw [fieldOf, slice, bytesNat_zeros]

/-! ## The codes of records (Tables 9-14, 9-15) -/

theorem toNat_dropCode (c : DropCause) : (dropCode c).toNat = (match c with
    | .queueFull => 1 | .converterOff => 2 | .powerOff => 3 | .sessionEnd => 4 | .fault => 5) := by cases c <;> rfl

theorem outcomeCode_lt (o : CueOutcome) : outcomeCode o < 14 := by cases o <;> decide

theorem modeCode_lt (m : ChanMode) : modeCode m < 6 := by cases m <;> decide

theorem levelBit_lt (l : Level) : levelBit l < 2 := by cases l <;> decide

/-- The fields of a SAMPLE or DROP that tell the source (Table 9-14). -/
def sourceFieldsOf (b : List Byte) (input : InputId) (source : Source) : Prop :=
  match source with
  | .cue lane seq => fieldOf b 0x02 1 = input.val ∧ fieldOf b 0x03 1 = lane.val ∧ fieldOf b 0x08 4 = seq.toNat
  | .link ch .action => fieldOf b 0x02 1 = input.val + 16 ∧ fieldOf b 0x03 1 = ch.val ∧ fieldOf b 0x08 4 = 0
  | .link ch .wrap => fieldOf b 0x02 1 = input.val + 16 + 32 ∧ fieldOf b 0x03 1 = ch.val ∧ fieldOf b 0x08 4 = 0

theorem sourceFieldsOf_of_slices {b : List Byte} {input : InputId} {source : Source}
    (event : (b.drop 0x02).take 1 = [sourceByte input source]) (owner : (b.drop 0x03).take 1 = [sourceOwner source])
    (seq : (b.drop 0x08).take 4 = le 4 (sourceSeq source)) : sourceFieldsOf b input source := by
  have isInput := input.isLt
  have seqField : fieldOf b 0x08 4 = (sourceSeq source).toNat := fieldOf_of_le_whole seq (by norm_num)
  cases source with
  | cue lane n =>
    have isLane := lane.isLt
    exact ⟨fieldOf_of_number event (by omega), fieldOf_of_number owner (by omega), seqField⟩
  | link ch kind =>
    have isChannel := ch.isLt
    cases kind with
    | action | wrap => exact ⟨fieldOf_of_number event (by omega), fieldOf_of_number owner (by omega), seqField⟩

end Sys2Proof.Machine
end

section
/-! PROOFS. The bytes of each kind of record, field by field, and the settling of O45 (Tables 9-13 to 9-15). -/

namespace Sys2Proof.Machine

theorem length_recBytes (r : Rec) : (recBytes r).length = recLength r := by
  cases r with
  | capture ch edge counter tag wraps tick => cases edge <;> rfl
  | note tag payload tick => cases payload <;> rfl
  | snapshot | sample | drop | cueReport | laneEvent | slotReject => rfl

theorem recBytes_length_field (r : Rec) : fieldOf (recBytes r) 0x01 1 = recLength r := by
  cases r with
  | note tag payload tick =>
    cases payload with
    | none => exact fieldOf_of_number (n := 16) rfl (by decide)
    | some p => exact fieldOf_of_number (n := 32) rfl (by decide)
  | capture | snapshot | sample | drop | cueReport | laneEvent | slotReject => exact fieldOf_of_number (n := 16) rfl (by decide)

theorem captureFields (ch : ChanId) (edge : Edge) (counter tag : Half) (wraps : Word) (tick : Tick) :
    fieldOf (recBytes (.capture ch edge counter tag wraps tick)) 0x02 1 = ch.val + (match edge with
      | .rise => 0 | .fall => 16) := by
  have isChannel := ch.isLt
  cases edge with
  | rise | fall => exact fieldOf_of_number rfl (by simp only; omega)

theorem snapshotFields (ch : ChanId) (mode : ChanMode) (output : Level) (staged : Bool) (counter tag : Half) (wraps : Word)
    (tick : Tick) : fieldOf (recBytes (.snapshot ch mode output staged counter tag wraps tick)) 0x03 1 = (match mode with
      | .unset => 0 | .stopped => 1 | .running => 2 | .paused => 3 | .armed => 4 | .pulsing => 5) +
      (match output with
        | .low => 0 | .high => 16) + (if staged then 32 else 0) := by
  have modeNumber : modeCode mode = (match mode with
      | .unset => 0 | .stopped => 1 | .running => 2 | .paused => 3 | .armed => 4 | .pulsing => 5) := by
    cases mode <;> rfl
  have levelNumber : 16 * levelBit output = (match output with
      | .low => 0 | .high => 16) := by
    cases output <;> rfl
  have isMode := modeCode_lt mode
  have isLevel := levelBit_lt output
  rw [← modeNumber, ← levelNumber]
  exact fieldOf_of_number rfl (by split <;> omega)

theorem cueReportFields (c : CueReport) : fieldOf (recBytes (.cueReport c)) 0x02 1 = c.lane.val + 4 * (match c.outcome with
    | .done => 0 | .doneReplacing => 1 | .already => 2 | .ignored => 3 | .empty => 4 | .doneLate => 5
    | .skippedLate => 6 | .partly => 7 | .refusedState => 8 | .refusedSettings => 9 | .refusedQueueFull => 10
    | .refusedConverterOff => 11 | .malformed => 12 | .order => 13) := by
  have number : outcomeCode c.outcome = (match c.outcome with
      | .done => 0 | .doneReplacing => 1 | .already => 2 | .ignored => 3 | .empty => 4 | .doneLate => 5
      | .skippedLate => 6 | .partly => 7 | .refusedState => 8 | .refusedSettings => 9 | .refusedQueueFull => 10
      | .refusedConverterOff => 11 | .malformed => 12 | .order => 13) := by
    cases c.outcome <;> rfl
  have isLane := c.lane.isLt
  have isOutcome := outcomeCode_lt c.outcome
  rw [← number]
  exact fieldOf_of_number rfl (by omega)

theorem laneEventFields (lane : LaneId) (event : LaneEvent) (segment count : Word) (tick : Tick) :
    fieldOf (recBytes (.laneEvent lane event segment count tick)) 0x02 1 = lane.val + 4 * (match event with
      | .fault _ => 1 | .ended => 2 | .cancelled => 3) ∧
    fieldOf (recBytes (.laneEvent lane event segment count tick)) 0x03 1 = (match event with
      | .fault .readError => 1 | .fault .fillBackwards => 2 | .fault .fillRange => 3 | .fault .badNext => 4
      | .fault .writeError => 5 | .fault .sequenceLimit => 6 | .ended => 0 | .cancelled => 0) := by
  have isLane := lane.isLt
  cases event with
  | fault cause =>
    refine ⟨fieldOf_of_number rfl (by simp only; omega), ?_⟩
    cases cause <;> exact fieldOf_of_number rfl (by decide)
  | ended | cancelled => exact ⟨fieldOf_of_number rfl (by simp only; omega), fieldOf_of_number rfl (by decide)⟩

theorem faultRecordFields (f : FaultRecord) :
    f.bytes.length = 32 ∧ fieldOf f.bytes 0x00 1 = 0x09 ∧ fieldOf f.bytes 0x01 1 = 0x20 ∧
      fieldOf f.bytes 0x02 1 = (match f.code with
        | .resultPathError => 1 | .timebaseEnd => 2) ∧
      fieldOf f.bytes 0x03 1 = (if f.secondary then 1 else 0) ∧ fieldOf f.bytes 0x04 4 = f.address.toNat ∧
      fieldOf f.bytes 0x08 6 = f.tick.toNat ∧ fieldOf f.bytes 0x0E 18 = 0 := by
  refine ⟨rfl, fieldOf_of_number rfl (by decide), fieldOf_of_number rfl (by decide), ?_, ?_, fieldOf_of_le_whole rfl (by norm_num),
    fieldOf_of_le_whole rfl (by norm_num), fieldOf_of_zeros rfl⟩
  · rw [fieldOf_of_byte (x := BitVec.ofNat 8 f.code.code) rfl]
    cases f.code <;> rfl
  · rw [fieldOf_of_byte (x := if f.secondary then 1 else 0) rfl]
    cases f.secondary <;> rfl

theorem pageHeaderFields (session : Half) (p : Page) (c : Closing) :
    let b := pageHeaderBytes session p c
    b.length = 32 ∧ fieldOf b 0x00 2 = session.toNat ∧ fieldOf b 0x02 1 = p.slot.val ∧
      fieldOf b 0x03 1 = (match c.cause with
        | .full => 1 | .deadline => 2 | .cue => 3 | .sessionEnd => 4 | .aborted => 5 | .fault => 6) ∧
      fieldOf b 0x04 4 = c.seq.toNat ∧ fieldOf b 0x08 4 = p.records % 2 ^ 32 ∧ fieldOf b 0x0C 4 = p.nextFree % 2 ^ 32 ∧
      fieldOf b 0x10 4 = c.lost.toNat ∧ (∀ f, p.firstTick = some f → fieldOf b 0x14 6 = f.toNat) ∧
      fieldOf b 0x1A 6 = c.time.toNat := by
  intro b
  have isSlot := p.slot.isLt
  have number (n : Nat) (off : Nat) (slice : (b.drop off).take 4 = le 4 (BitVec.ofNat 32 n)) :
      fieldOf b off 4 = n % 2 ^ 32 :=
    (fieldOf_of_le_whole slice (by norm_num)).trans (BitVec.toNat_ofNat _ _)
  refine ⟨rfl, fieldOf_of_le_whole (v := session) rfl (by norm_num), fieldOf_of_number (n := p.slot.val) rfl (by omega), ?_,
    fieldOf_of_le_whole (v := c.seq) rfl (by norm_num), number p.records _ rfl, number p.nextFree _ rfl,
    fieldOf_of_le_whole (v := c.lost) rfl (by norm_num), fun f first => ?_,
    fieldOf_of_le_whole (v := c.time) rfl (by norm_num)⟩
  · rw [fieldOf_of_byte (x := c.cause.code) rfl]
    cases c.cause <;> rfl
  · have slice : (b.drop 0x14).take 6 = le 6 (p.firstTick.getD 0) := rfl
    rw [first] at slice
    exact fieldOf_of_le_whole slice (by norm_num)

/-- Settles O45: what an offer leaves, and the bytes of the records, the FAULT record and the page header. -/
theorem recordsOfferedAndTheirBytes : Obligations.RecordsOfferedAndTheirBytes := by
  refine ⟨fun s r free => exec_recordOffer_spec s r free, ?_, ?_, ?_⟩
  · intro sourceFields r b isBytes
    subst isBytes
    refine ⟨length_recBytes r, recBytes_length_field r, ?_⟩
    have sources (input : InputId) (source : Source) (h : sourceFieldsOf (recBytes r) input source) :
        sourceFields (recBytes r) input source := by
      cases source with
      | cue lane seq => exact h
      | link ch kind => cases kind <;> exact h
    cases r with
    | capture ch edge counter tag wraps tick =>
      exact ⟨rfl, fieldOf_of_number rfl (by decide), captureFields ch edge counter tag wraps tick, fieldOf_of_number rfl (by decide),
        fieldOf_of_le_whole (v := counter) rfl (by norm_num), fieldOf_of_le_whole (v := tag) rfl (by norm_num),
        fieldOf_of_le_whole (v := wraps) rfl (by norm_num), fieldOf_of_le (v := tick) rfl⟩
    | snapshot ch mode output staged counter tag wraps tick =>
      have isChannel := ch.isLt
      exact ⟨rfl, fieldOf_of_number rfl (by decide), fieldOf_of_number (n := ch.val) rfl (by omega),
        snapshotFields ch mode output staged counter tag wraps tick,
        fieldOf_of_le_whole (v := counter) rfl (by norm_num), fieldOf_of_le_whole (v := tag) rfl (by norm_num),
        fieldOf_of_le_whole (v := wraps) rfl (by norm_num), fieldOf_of_le (v := tick) rfl⟩
    | sample input source value tag start =>
      have value16 : fieldOf (recBytes (.sample input source value tag start)) 0x04 2 = value.toNat := by
        rw [fieldOf_of_le_whole (v := value.setWidth 16) rfl (by norm_num), BitVec.toNat_setWidth]
        exact Nat.mod_eq_of_lt (value.isLt.trans (by norm_num))
      exact ⟨rfl, fieldOf_of_number rfl (by decide), sources input source (sourceFieldsOf_of_slices rfl rfl rfl), value16,
        fieldOf_of_le_whole (v := tag) rfl (by norm_num), fieldOf_of_le (v := start) rfl⟩
    | drop input source cause tag tick =>
      have code : fieldOf (recBytes (.drop input source cause tag tick)) 0x04 2 = (dropCode cause).toNat := by
        have slice : ((recBytes (.drop input source cause tag tick)).drop 0x04).take 2 = [dropCode cause, 0] := rfl
        simp [fieldOf, slice, bytesNat]
      exact ⟨rfl, fieldOf_of_number rfl (by decide), sources input source (sourceFieldsOf_of_slices rfl rfl rfl),
        code.trans (toNat_dropCode cause), fieldOf_of_le_whole (v := tag) rfl (by norm_num), fieldOf_of_le (v := tick) rfl⟩
    | cueReport c =>
      exact ⟨rfl, fieldOf_of_number rfl (by decide), cueReportFields c, fieldOf_of_byte rfl,
        fieldOf_of_le_whole (v := c.seq) rfl (by norm_num), fieldOf_of_le (v := c.time) rfl,
        fieldOf_of_le_whole (v := c.detail) rfl (by norm_num), fieldOf_of_le_whole (v := c.tag) rfl (by norm_num)⟩
    | laneEvent lane event segment count tick =>
      obtain ⟨kind, cause⟩ := laneEventFields lane event segment count tick
      exact ⟨rfl, fieldOf_of_number rfl (by decide), kind, cause, fieldOf_of_le_whole (v := segment) rfl (by norm_num),
        fieldOf_of_le_whole (v := count) rfl (by norm_num), fieldOf_of_le (v := tick) rfl⟩
    | note tag payload tick =>
      cases payload with
      | none =>
        exact ⟨fieldOf_of_number rfl (by decide), fieldOf_of_le_whole (v := tag) rfl (by norm_num), fieldOf_of_zeros rfl,
          fieldOf_of_le (v := tick) rfl, rfl⟩
      | some p =>
        exact ⟨fieldOf_of_number rfl (by decide), fieldOf_of_le_whole (v := tag) rfl (by norm_num), fieldOf_of_zeros rfl,
          fieldOf_of_le (v := tick) rfl, rfl, fieldOf_of_le_whole (v := p) rfl (by norm_num)⟩
    | slotReject slot reason tick =>
      have isSlot := slot.isLt
      refine ⟨rfl, fieldOf_of_number rfl (by decide), fieldOf_of_number (n := slot.val) rfl (by omega), ?_, fieldOf_of_zeros rfl,
        fieldOf_of_le (v := tick) rfl⟩
      rw [fieldOf_of_byte (x := rejectCode reason) rfl]
      cases reason <;> rfl
  · rintro f b rfl
    exact faultRecordFields f
  · rintro session p c b rfl
    exact pageHeaderFields session p c

end Sys2Proof.Machine
end

section
/-! PROOFS. The writer's accesses answered (O47): records written, closes completed, slots taken, examined and rejected,
and the failure of any access (sections 6.4, 6.5, 6.7). -/

namespace Sys2Proof.Machine

/-! ## A record written (R135) -/

theorem Writer.beginClose_of_not_due {w : Writer} (notDue : w.deadlineDue = false) (cause : CloseCause) (now : Tick)
    (m : Option CloseMarker) : w.beginClose cause now m = { w with
      closeSeq := w.closeSeq + 1
      task := .header { cause, seq := w.closeSeq + 1, time := now, lost := w.lost, marker := m } } := by
  unfold Writer.beginClose
  rw [← notDue]

/-- The writer whose record write has been answered, before it decides on a close. -/
def Writer.recorded (w : Writer) (p : Page) (length : Nat) (now : Tick) : Writer :=
  { w with queue := w.queue.tail, page := some (p.after length now), task := .none }

theorem State.writerOkay_record {s : State} {p : Page} {length : Nat} (d : BusData) (opened : s.wr.state = .opened)
    (page : s.wr.page = some p) (task : s.wr.task = .record length) (noAbort : s.wr.aborting = false)
    (notDue : s.wr.deadlineDue = false) :
    s.writerOkay d = { s with wr := (s.wr.recorded p length s.now).decideClose s.now } := by
  have written : s.recordWritten length = { s with wr := s.wr.recorded p length s.now } := by
    simp only [State.recordWritten, page]
    rfl
  have settled : s.writerOkay d = (s.recordWritten length).writerSettle := by
    simp only [State.writerOkay, task, notDue]
    rw [if_neg (by simp [State.recordWritten, noAbort])]
    rfl
  rw [settled, written]
  exact State.writerSettle_of_opened opened

/-! ## A failed access (R139) -/

/-- An ERROR fails the result path, while the session goes on. -/
theorem State.exec_writerError {s : State} {rq : Request} {k : Byte} {g : Nat} (d : BusData) (free : s.free)
    (quiet : s.port.quiet = none) (noReset : s.eng.resetPending = false) (fills : s.fillsPages)
    (outstanding : s.port.writer = .outstanding rq k g) : exec (.response .writer k false d) s =
      .next (State.pathFailure { s with port := s.port.ended .writer } rq.addr) := by
  rw [exec_response _ _ _ _ s free, State.takeResponse_matched (r := .writer) quiet outstanding]
  have works : State.writerWorks { s with port := s.port.ended .writer } = true :=
    State.writerWorks_of_fillsPages (by exact fills)
  have answered : State.writerAnswer { s with port := s.port.ended .writer } rq.addr .error =
      State.pathFailure { s with port := s.port.ended .writer } rq.addr := by
    simp only [State.writerAnswer, works]
    rfl
  have error : responseAnswer false d = .error := rfl
  simp only [State.answer, error, answered]
  rw [State.afterAnswer_of_state]
  rw [State.pathFailure_eng (by exact fills) (by exact noReset)]
  simp

/-- What is lost with the path: the queue, what the stop produces, and the FAULT record. -/
theorem State.pathFailure_lost {s : State} (fills : s.fillsPages) (noReset : s.eng.resetPending = false) (a : Word)
    (noFault : s.wr.faultRecord = none) : (s.pathFailure a).wr.lost.toNat =
      lostAfter s.wr.lost (recordCount s.wr.queue + (s.stopRecords s.cal).length + 1) := by
  have stopped : s.wr.stop.lost = satAdd s.wr.lost (recordCount s.wr.queue) := by
    simp [Writer.stop, Writer.discardQueue, Writer.lose, noFault, satAdd_satAdd]
  rw [State.pathFailure_wr fills noReset]
  simp only [stopped, satAdd_satAdd, satAdd_toNat, lostAfter]
  rw [Nat.add_assoc (recordCount s.wr.queue)]

/-! ## A close completed (R137, R140) -/

/-- The writer without its page, the CLOSED write answered. -/
def Writer.pageGone (w : Writer) : Writer := { w with page := none, task := .none, state := .idle }

/-- The report of a close marker, case by case (R126). -/
theorem closeReport_done (m : CloseMarker) : closeReport m .done = (match m.lateness with
    | none =>
      if m.report then
        [.cueReport { lane := m.lane, seq := m.seq, code := 0x89, outcome := .done, time := m.time, detail := 0
                      tag := m.tag }]
      else []
    | some late =>
      [.cueReport { lane := m.lane, seq := m.seq, code := 0x89, outcome := .doneLate, time := m.time, detail := late
                    tag := m.tag }]) := by
  unfold closeReport
  cases m.lateness with
  | none => cases m.report <;> rfl
  | some late => rfl

/-- The reports of a close: its marker's, if a marker asked for it. -/
def Closing.reports (c : Closing) : List Rec :=
  match c.marker with
  | none => []
  | some m => closeReport m .done

theorem State.closeComplete_eq (s : State) (c : Closing) : s.closeComplete c =
    (let u := State.raise { s with wr := s.wr.pageGone } .page
     if s.wr.closeIsLast c then (u.limitClose c).offerAll c.reports else (u.offerAll c.reports).writerSettle) := by
  unfold State.closeComplete Closing.reports Writer.pageGone
  cases c.marker <;> cases s.wr.closeIsLast c <;> rfl

/-- A close that is not the last leaves the writer IDLE with its report, and it settles. -/
theorem State.closeComplete_of_goes_on {s : State} {c : Closing} (goesOn : s.wr.closeIsLast c = false) :
    s.closeComplete c = State.writerSettle { s with
      wr := s.wr.pageGone.offered s.now c.reports
      win := { s.win with alert := s.win.alert ||| 0x01 } } := by
  rw [State.closeComplete_eq]
  simp only [goesOn]
  rw [if_neg (by simp), State.offerAll_eq]
  rfl

/-- The last close leaves the writer DONE; its marker's report, if any, is lost. -/
theorem State.closeComplete_of_last {s : State} {c : Closing} (last : s.wr.closeIsLast c = true) :
    s.closeComplete c =
      (State.limitClose (State.raise { s with wr := s.wr.pageGone } .page) c).offerAll c.reports := by
  rw [State.closeComplete_eq]
  simp only [last, if_true]

theorem Writer.closeIsLast_iff {w : Writer} {c : Closing} (noAbort : w.aborting = false)
    (asked : c.cause = .full ∨ c.cause = .deadline ∨ c.cause = .cue) :
    w.closeIsLast c = true ↔ w.closeSeq = BitVec.allOnes 32 := by
  rcases asked with cause | cause | cause <;> simp [Writer.closeIsLast, noAbort, cause]

/-- At the limit of the close sequence counter the writer is DONE; the path is complete where the end marker was
placed. -/
theorem State.limitClose_of_asked {s : State} {c : Closing} (asked : c.cause = .full ∨ c.cause = .deadline ∨ c.cause = .cue)
    (noAbort : s.wr.aborting = false) (noFlush : s.wr.flushing = false) : s.limitClose c = { s with
      wr := s.wr.stop, eng := { s.eng with pathComplete := s.eng.pathComplete || s.eng.markerPlaced } } := by
  have decided : s.limitClose c = if s.wr.aborting || s.wr.flushing || s.eng.markerPlaced then s.writerComplete
      else { s with wr := s.wr.stop } := by
    rcases asked with cause | cause | cause <;> simp only [State.limitClose, cause]
  rw [decided]
  by_cases placed : s.eng.markerPlaced = true
  · have complete : (s.eng.pathComplete || s.eng.markerPlaced) = true := by simp [placed]
    rw [if_pos (by simp [placed]), complete]
    rfl
  · have same : (s.eng.pathComplete || s.eng.markerPlaced) = s.eng.pathComplete := by simp [placed]
    rw [if_neg (by simp [placed, noAbort, noFlush]), same]

/-- A stopped writer has lost its queue, and its FAULT record. -/
theorem Writer.stop_spec (w : Writer) : w.stop.state = .done ∧ w.stop.page = w.page ∧ w.stop.queue = [] ∧
    w.stop.closeSeq = w.closeSeq ∧
    (w.faultRecord = none → w.stop.lost.toNat = lostAfter w.lost (recordCount w.queue)) :=
  ⟨rfl, rfl, rfl, rfl, Writer.stop_lost⟩

/-- A DONE writer loses what it is offered, and nothing else changes. -/
theorem Writer.offered_of_done {w : Writer} (now : Tick) (done : w.state = .done) (rs : List Rec) :
    w.offered now rs = { w with lost := (w.offered now rs).lost } :=
  Writer.offered_of_not_keeps now (by simp [Writer.keeps, done]) rs

/-! ## Slots (R130 to R133) -/

theorem fourEntries_eq (d : BusData) : fourEntries d = slotEntriesOf d := rfl

theorem examineSlots_cons (w : Option Window) (slot : SlotId) (e : SlotEntry) (rest : List (SlotId × SlotEntry)) :
    (e.state ≠ 1 → examineSlots w ((slot, e) :: rest) = examineSlots w rest) ∧
    (e.state = 1 → slotCheck w e = none → examineSlots w ((slot, e) :: rest) = ([], some { slot, entry := e })) ∧
    (∀ reason, e.state = 1 → slotCheck w e = some reason →
      examineSlots w ((slot, e) :: rest) =
        ({ slot, reason, entry := e } :: (examineSlots w rest).1, (examineSlots w rest).2)) := by
  refine ⟨fun other => ?_, fun offered good => ?_, fun reason offered bad => ?_⟩
  · have passed : ¬ e.offered = true := by simpa [SlotEntry.offered] using other
    simp only [examineSlots]
    exact if_neg passed
  · simp [examineSlots, SlotEntry.offered, offered, good]
  · simp [examineSlots, SlotEntry.offered, offered, bad]

/-- A reread that found no good slot: a kept request begins another. -/
theorem State.rereadFailed_eq (s : State) : s.rereadFailed = { s with
    wr := if s.wr.reread = .kept then { s.wr with reread := .present, task := .table [] }
          else { s.wr with reread := .absent, task := .none } } := by
  unfold State.rereadFailed
  cases s.wr.reread <;> rfl

/-- With the rejections made the good slot is filled, or the writer starves, or rereads. -/
theorem State.afterRejects_spec {s : State} {good : Option GoodSlot} (noFlush : s.wr.flushing = false) :
    (∀ x, good = some x → s.afterRejects good = { s with wr := { s.wr with task := .fill x } }) ∧
    (good = none → s.wr.state = .idle → s.afterRejects good = { s with
      wr := { s.wr with state := .starved, starveCount := 0, reread := .absent, task := .none }
      win := { s.win with alert := s.win.alert ||| 0x02 } }) ∧
    (good = none → s.wr.state = .starved → s.afterRejects good = { s with
      wr := if s.wr.reread = .kept then { s.wr with reread := .present, task := .table [] }
            else { s.wr with reread := .absent, task := .none } }) := by
  refine ⟨fun x isGood => ?_, fun none idle => ?_, fun none starved => ?_⟩
  · simp only [State.afterRejects, isGood]
  · simp only [State.afterRejects, none]
    unfold State.noSlot
    rw [if_neg (by simp [idle]), if_neg (by simp [noFlush])]
    rfl
  · simp only [State.afterRejects, none]
    unfold State.noSlot
    rw [if_pos starved, if_neg (by simp [noFlush])]
    exact State.rereadFailed_eq s

theorem State.afterRejects_eng {s : State} (noFlush : s.wr.flushing = false) (good : Option GoodSlot) :
    (s.afterRejects good).eng = s.eng := by
  cases good with
  | some x => rfl
  | none =>
    simp only [State.afterRejects]
    unfold State.noSlot
    by_cases starved : s.wr.state = .starved
    · rw [if_pos starved, if_neg (by simp [noFlush]), State.rereadFailed_eq]
    · rw [if_neg starved, if_neg (by simp [noFlush])]
      rfl

theorem recLength_le (r : Rec) : recLength r ≤ 32 := by
  unfold recLength
  split <;> omega

/-- A page just opened holds the record at the head of the queue (R132). -/
theorem State.writerOkay_fill {s : State} {x : GoodSlot} {r : Rec} {rest : List Item} (d : BusData)
    (noAbort : s.wr.aborting = false) (task : s.wr.task = .fill x) (queue : s.wr.queue = .record r :: rest)
    (size : 512 ≤ x.entry.size.toNat) : s.writerOkay d = { s with wr := { s.wr with
      state := .opened, reread := .absent, task := .none, page := some x.page } } := by
  have fits : x.page.nextFree + recLength r ≤ x.page.size.toNat := by
    have short := recLength_le r
    show 32 + recLength r ≤ x.entry.size.toNat
    omega
  have settled : s.writerOkay d = State.writerSettle { s with wr := { s.wr with
      page := some x.page, state := .opened, reread := .absent, task := .none } } := by
    simp only [State.writerOkay, task]
    exact if_neg (by simp [noAbort])
  rw [settled, State.writerSettle_of_opened (by exact rfl), Writer.decideClose_of_fits _ (by exact rfl) (by exact queue) fits]

end Sys2Proof.Machine
end

section
/-! PROOFS. The settling of O47: each answer to an access of the writer, from the rules of the parts it touches. -/

namespace Sys2Proof.Machine

/-- The writer's transaction has ended; nothing else has changed. -/
def State.writeEnded (s : State) : State := { s with port := s.port.ended .writer }

/-! ## A failed access -/

/-- What a failed access makes of the session (R139, R143, R160, R161). -/
theorem exec_writerError_spec (s : State) (rq : Request) (k : Byte) (g : Nat) (d : BusData) (free : s.free)
    (quiet : s.port.quiet = none) (noReset : s.eng.resetPending = false) (fills : s.fillsPages)
    (outstanding : s.port.writer = .outstanding rq k g) :
    ∃ t, exec (.response .writer k false d) s = .next t ∧ t.wr.state = .done ∧ t.wr.queue = [] ∧
      t.wr.pathFailed = true ∧ t.eng.state = .faulted ∧ t.eng.faultCode = some .resultPathError ∧
      t.eng.faultAddr = rq.addr ∧ t.eng.windDown = false ∧ t.eng.converterIdle = true ∧ t.eng.pathComplete = true ∧
      t.eng.secondary = s.eng.secondary ∧ t.tb = { s.tb with runs := false } ∧ t.cal = [] ∧
      t.win = { s.win with alert := s.win.alert ||| 0x40 } ∧ t.wr.page = s.wr.page ∧ t.wr.closeSeq = s.wr.closeSeq ∧
      (s.wr.faultRecord = none →
        t.wr.lost.toNat = lostAfter s.wr.lost (recordCount s.wr.queue + (s.stopRecords s.cal).length + 1)) ∧
      (∀ i : LaneId, (t.lane i).state ≠ .active ∧ (t.lane i).state ≠ .waiting ∧ (t.lane i).state ≠ .blocked ∧
        (t.lane i).acceptedHead = none) ∧
      (∀ ch : ChanId, t.chan ch = (s.chan ch).sessionStop) ∧
      t.conv.power = .off ∧ t.conv.queue = [] ∧ t.conv.inFlight = none ∧ t.conv.closing = some .fault ∧
      t.port.loader = s.port.loader.withdrawn := by
  have run := State.exec_writerError d free quiet noReset fills outstanding
  have fills' : s.writeEnded.fillsPages := fills
  have noReset' : s.writeEnded.eng.resetPending = false := noReset
  have wr := State.pathFailure_wr fills' noReset' rq.addr
  have eng := State.pathFailure_eng fills' noReset' rq.addr
  have lost := State.pathFailure_lost fills' noReset' rq.addr
  obtain ⟨tb, cal, win, lanes, chans, power, queue, inFlight, closing, port⟩ :=
    State.pathFailure_rest fills' noReset' rq.addr
  have records : s.writeEnded.stopRecords s.cal = s.stopRecords s.cal := State.stopRecords_congr rfl rfl rfl _
  refine ⟨s.writeEnded.pathFailure rq.addr, run, ?_⟩
  generalize s.writeEnded.pathFailure rq.addr = t at *
  rw [eng, port]
  refine ⟨by rw [wr]; rfl, by rw [wr]; rfl, by rw [wr], rfl, rfl, rfl, rfl, rfl, rfl, rfl, tb, cal, win, by rw [wr]; rfl,
    by rw [wr]; rfl, fun noFault => ?_, lanes, chans, power, queue, inFlight, closing, rfl⟩
  rw [← records]
  exact lost noFault

/-! ## Examinations -/

/-- An offer leaves the writer's state and marks. -/
theorem Writer.offer_keeps_state (w : Writer) (now : Tick) (r : Rec) :
    (w.offer now r).state = w.state ∧ (w.offer now r).reread = w.reread ∧ (w.offer now r).aborting = w.aborting ∧
      (w.offer now r).flushing = w.flushing := by
  obtain ⟨state, -, reread, -, -, -, -, aborting, flushing⟩ := Writer.offered_frame w now [r]
  exact ⟨state, reread, aborting, flushing⟩

/-- The fourth read of the table: the entries are examined (R130). -/
theorem State.writerOkay_lastTable {s : State} {d : BusData} {es : List SlotEntry} {failed : List FailedSlot} {good : Option GoodSlot}
    (noAbort : s.wr.aborting = false) (task : s.wr.task = .table es) (all : es.length = 12)
    (examined : examineSlots s.port.window ((List.finRange 16).zip (es ++ slotEntriesOf d)) = (failed, good)) :
    s.writeEnded.writerOkay d = if failed = [] then s.writeEnded.afterRejects good
      else { s.writeEnded with wr := { s.wr with task := .reject failed good } } := by
  have sameTask : s.writeEnded.wr.task = .table es := task
  have goesOn : ¬ s.writeEnded.wr.aborting = true := by simp [State.writeEnded, noAbort]
  have slots : examineSlots s.writeEnded.port.window (numberedSlots (es ++ fourEntries d)) = (failed, good) := examined
  simp only [State.writerOkay, sameTask]
  rw [if_neg goesOn, if_neg (by rw [List.length_append, all]; simp [fourEntries])]
  simp only [State.examine, slots]
  rfl

/-- The write of a rejection: its record is offered, then the next rejection is made, or the examination ends (R131). -/
theorem State.writerOkay_reject {s : State} {d : BusData} {x : FailedSlot} {todo : List FailedSlot} {good : Option GoodSlot}
    (noAbort : s.wr.aborting = false) (task : s.wr.task = .reject (x :: todo) good) :
    s.writeEnded.writerOkay d =
      (let u : State := { s.writeEnded with wr := s.wr.offer s.now (.slotReject x.slot x.reason s.now) }
       if todo = [] then u.afterRejects good else { u with wr := { u.wr with task := .reject todo good } }) := by
  have sameTask : s.writeEnded.wr.task = .reject (x :: todo) good := task
  have goesOn : ¬ (s.writeEnded.offer (.slotReject x.slot x.reason s.writeEnded.now)).wr.aborting = true := by
    have kept : (s.wr.offer s.now (.slotReject x.slot x.reason s.now)).aborting = s.wr.aborting :=
      (Writer.offer_keeps_state _ _ _).2.2.1
    rw [Bool.not_eq_true]
    exact kept.trans noAbort
  simp only [State.writerOkay, sameTask]
  rw [if_neg goesOn]
  rfl

/-! ## Answers of OKAY -/

section
variable {s : State} {rq : Request} {k : Byte} {g : Nat} {d : BusData}
variable (free : s.free) (quiet : s.port.quiet = none) (noReset : s.eng.resetPending = false) (fills : s.fillsPages)
variable (outstanding : s.port.writer = .outstanding rq k g)
include free quiet noReset fills outstanding

/-- An OKAY leaves what the writer's task makes of it, when Engine Control's state goes on. -/
theorem exec_writerOkay_of_eng {t : State} (okay : s.writeEnded.writerOkay d = t) (state : t.eng.state = s.eng.state)
    (aborting : t.eng.aborting = s.eng.aborting) : exec (.response .writer k true d) s = .next t :=
  State.exec_writerOkay d free quiet fills outstanding (.inl noReset) okay state aborting

/-- A record written, with the close the writer then decides. -/
theorem exec_recordAnswer {p : Page} {length : Nat} {w : Writer} (noAbort : s.wr.aborting = false)
    (opened : s.wr.state = .opened) (page : s.wr.page = some p) (task : s.wr.task = .record length)
    (notDue : s.wr.deadlineDue = false) (decided : (s.wr.recorded p length s.now).decideClose s.now = w) :
    exec (.response .writer k true d) s = .next { s.writeEnded with wr := w } := by
  have okay := State.writerOkay_record (s := s.writeEnded) d (by exact opened) (by exact page) (by exact task)
    (by exact noAbort) (by exact notDue)
  have written : s.writeEnded.writerOkay d = { s.writeEnded with wr := w } :=
    okay.trans (by rw [← decided]; rfl)
  exact exec_writerOkay_of_eng free quiet noReset fills outstanding written rfl rfl

/-- A next record that fits, or a marker, leaves the page open; a record that does not fit closes it. -/
theorem recordAnswered {p : Page} {r r' : Rec} {rest : List Item} (opened : s.wr.state = .opened)
    (page : s.wr.page = some p) (queue : s.wr.queue = .record r :: .record r' :: rest)
    (task : s.wr.task = .record (recLength r)) (noAbort : s.wr.aborting = false) (notDue : s.wr.deadlineDue = false) :
    (p.nextFree + recLength r + recLength r' ≤ p.size.toNat →
      exec (.response .writer k true d) s = .next { s.writeEnded with wr := { s.wr with
        queue := .record r' :: rest, task := .none, page := some (p.after (recLength r) s.now) } }) ∧
    (p.size.toNat < p.nextFree + recLength r + recLength r' →
      exec (.response .writer k true d) s = .next { s.writeEnded with wr := { s.wr with
        queue := .record r' :: rest, closeSeq := s.wr.closeSeq + 1
        task := .header { cause := .full, seq := s.wr.closeSeq + 1, time := s.now, lost := s.wr.lost, marker := none }
        page := some (p.after (recLength r) s.now) } }) := by
  have recorded : s.wr.recorded p (recLength r) s.now = { s.wr with
      queue := .record r' :: rest, task := .none, page := some (p.after (recLength r) s.now) } := by
    simp only [Writer.recorded, queue, List.tail_cons]
  refine ⟨fun fits => ?_, fun full => ?_⟩
  · refine exec_recordAnswer free quiet noReset fills outstanding noAbort opened page task notDue ?_
    rw [recorded]
    exact Writer.decideClose_of_fits _ rfl rfl fits
  · refine exec_recordAnswer free quiet noReset fills outstanding noAbort opened page task notDue ?_
    rw [recorded, Writer.decideClose_of_full _ rfl (by exact opened) rfl rfl full,
      Writer.beginClose_of_not_due (by exact notDue)]

/-- The last record of the queue, and a record before a marker. -/
theorem lastRecordAnswered {p : Page} {r : Rec} (noAbort : s.wr.aborting = false) (noFlush : s.wr.flushing = false)
    (opened : s.wr.state = .opened) (page : s.wr.page = some p) (task : s.wr.task = .record (recLength r))
    (notDue : s.wr.deadlineDue = false) :
    (s.wr.queue = [.record r] → ∃ t, exec (.response .writer k true d) s = .next t ∧
      (s.wr.endTaken = false →
        t.wr = { s.wr with queue := [], task := .none, page := some (p.after (recLength r) s.now) }) ∧
      (s.wr.endTaken = true →
        t.wr = { s.wr with queue := [], page := some (p.after (recLength r) s.now), closeSeq := s.wr.closeSeq + 1,
                           task := .header { cause := .sessionEnd, seq := s.wr.closeSeq + 1, time := s.now,
                                             lost := s.wr.lost, marker := none } }) ∧
      t.win = s.win ∧ t.eng = s.eng) ∧
    (∀ x rest, s.wr.queue = .record r :: x :: rest → (x = .endMarker ∨ ∃ m, x = .closeMarker m) →
      ∃ t, exec (.response .writer k true d) s = .next t ∧
        t.wr = { s.wr with queue := x :: rest, task := .none, page := some (p.after (recLength r) s.now) } ∧
        t.win = s.win ∧ t.eng = s.eng) := by
  have answered {w : Writer} := exec_recordAnswer (w := w) (d := d) free quiet noReset fills outstanding noAbort opened page
    task notDue
  refine ⟨fun queue => ?_, fun x rest queue marker => ?_⟩
  · have recorded : s.wr.recorded p (recLength r) s.now = { s.wr with
        queue := [], task := .none, page := some (p.after (recLength r) s.now) } := by
      simp only [Writer.recorded, queue, List.tail_cons]
    cases ended : s.wr.endTaken with
    | false =>
      refine ⟨_, answered ?_, fun _ => rfl, fun yes => by simp at yes, rfl, rfl⟩
      rw [recorded]
      exact Writer.decideClose_of_empty _ rfl noFlush ended
    | true =>
      refine ⟨_, answered rfl, fun no => by simp at no, fun _ => ?_, rfl, rfl⟩
      show Writer.decideClose _ _ = _
      rw [recorded, Writer.decideClose_of_ended _ rfl (by exact opened) rfl rfl (by exact noFlush) (by exact ended),
        Writer.beginClose_of_not_due (by exact notDue)]
  · have recorded : s.wr.recorded p (recLength r) s.now = { s.wr with
        queue := x :: rest, task := .none, page := some (p.after (recLength r) s.now) } := by
      simp only [Writer.recorded, queue, List.tail_cons]
    refine ⟨_, answered ?_, rfl, rfl, rfl⟩
    rw [recorded]
    exact Writer.decideClose_of_marker _ rfl marker

/-- The CLOSED write of a close that is not the last. -/
theorem closeAnswered {c : Closing} (noAbort : s.wr.aborting = false) (noFlush : s.wr.flushing = false)
    (task : s.wr.task = .closed c) (asked : c.cause = .full ∨ c.cause = .deadline ∨ c.cause = .cue)
    (below : s.wr.closeSeq ≠ BitVec.allOnes 32) :
    ∃ t, exec (.response .writer k true d) s = .next t ∧ t.win = { s.win with alert := s.win.alert ||| 0x01 } ∧
      (s.wr.endTaken = false ∨ (s.wr.pageGone.offered s.now c.reports).queue ≠ [] →
        t.wr = s.wr.pageGone.offered s.now c.reports ∧ t.eng = s.eng) ∧
      (s.wr.endTaken = true → (s.wr.pageGone.offered s.now c.reports).queue = [] →
        t.wr.state = .done ∧ t.wr.page = none ∧ t.wr.queue = [] ∧ t.eng = { s.eng with pathComplete := true }) := by
  have goesOn : s.wr.closeIsLast c = false := by
    rw [Bool.eq_false_iff]
    exact mt (Writer.closeIsLast_iff noAbort asked).mp below
  have okay : s.writeEnded.writerOkay d = State.writerSettle { s.writeEnded with
      wr := s.wr.pageGone.offered s.now c.reports, win := { s.win with alert := s.win.alert ||| 0x01 } } := by
    have closed : s.writeEnded.writerOkay d = s.writeEnded.closeComplete c := by
      have sameTask : s.writeEnded.wr.task = .closed c := task
      simp only [State.writerOkay, sameTask]
    rw [closed, State.closeComplete_of_goes_on (s := s.writeEnded) goesOn]
    rfl
  have frame := Writer.offered_frame s.wr.pageGone s.now c.reports
  have idle : (s.wr.pageGone.offered s.now c.reports).state = .idle := frame.1
  have noTask : (s.wr.pageGone.offered s.now c.reports).task = .none := by
    rw [Writer.offered_task _ (by simp [Writer.pageGone])]
    rfl
  have ended : (s.wr.pageGone.offered s.now c.reports).endTaken = s.wr.endTaken := by simp [Writer.pageGone]
  have flushing : (s.wr.pageGone.offered s.now c.reports).flushing = false := by simpa [Writer.pageGone] using noFlush
  have page : (s.wr.pageGone.offered s.now c.reports).page = none := by simp [Writer.pageGone]
  generalize s.wr.pageGone.offered s.now c.reports = w at *
  by_cases last : s.wr.endTaken = true ∧ w.queue = []
  · rw [State.writerSettle_of_ended (by exact idle) (by exact noTask) (ended.trans last.1) (by exact last.2)] at okay
    refine ⟨_, exec_writerOkay_of_eng free quiet noReset fills outstanding okay rfl rfl, rfl, fun other => ?_,
      fun _ _ => ⟨rfl, page, rfl, rfl⟩⟩
    rcases other with no | no
    · simp [last.1] at no
    · exact absurd last.2 no
  · have goes : w.endTaken = false ∨ w.queue ≠ [] := by
      rw [ended]
      cases taken : s.wr.endTaken with
      | false => exact .inl rfl
      | true => exact .inr fun empty => last ⟨taken, empty⟩
    rw [State.writerSettle_of_idle (by exact idle) (by exact goes) (by exact flushing)] at okay
    exact ⟨_, exec_writerOkay_of_eng free quiet noReset fills outstanding okay rfl rfl, rfl, fun _ => ⟨rfl, rfl⟩,
      fun taken empty => absurd ⟨taken, empty⟩ last⟩

/-- The CLOSED write of the close that ends a drain's pages (R140). -/
theorem endCloseAnswered {c : Closing} (task : s.wr.task = .closed c) (cause : c.cause = .sessionEnd)
    (noMarker : c.marker = none) (noFault : s.wr.faultRecord = none) :
    ∃ t, exec (.response .writer k true d) s = .next t ∧ t.wr.state = .done ∧ t.wr.page = none ∧ t.wr.queue = [] ∧
      t.wr.closeSeq = s.wr.closeSeq ∧ t.wr.lost.toNat = lostAfter s.wr.lost (recordCount s.wr.queue) ∧
      t.win = { s.win with alert := s.win.alert ||| 0x01 } ∧ t.eng = { s.eng with pathComplete := true } := by
  have last : s.wr.closeIsLast c = true := by simp [Writer.closeIsLast, cause]
  have okay : s.writeEnded.writerOkay d =
      State.writerComplete (State.raise { s.writeEnded with wr := s.wr.pageGone } .page) := by
    have sameTask : s.writeEnded.wr.task = .closed c := task
    have closed : s.writeEnded.writerOkay d = s.writeEnded.closeComplete c := by simp only [State.writerOkay, sameTask]
    have noReports : c.reports = [] := by simp only [Closing.reports, noMarker]
    rw [closed, State.closeComplete_of_last (s := s.writeEnded) last, noReports, State.offerAll]
    simp only [State.limitClose, cause]
    rfl
  exact ⟨_, exec_writerOkay_of_eng free quiet noReset fills outstanding okay rfl rfl, rfl, rfl, rfl, rfl,
    Writer.stop_lost (w := s.wr.pageGone) noFault, rfl, rfl⟩

/-- The last close the counter allows (R137). -/
theorem limitCloseAnswered {c : Closing} (noAbort : s.wr.aborting = false) (noFlush : s.wr.flushing = false)
    (task : s.wr.task = .closed c) (asked : c.cause = .full ∨ c.cause = .deadline ∨ c.cause = .cue)
    (limit : s.wr.closeSeq = BitVec.allOnes 32) :
    ∃ t, exec (.response .writer k true d) s = .next t ∧
      t.wr.state = .done ∧ t.wr.page = none ∧ t.wr.queue = [] ∧ t.wr.closeSeq = s.wr.closeSeq ∧
      (c.marker = none → s.wr.faultRecord = none →
        t.wr.lost.toNat = lostAfter s.wr.lost (recordCount s.wr.queue)) ∧
      t.win = { s.win with alert := s.win.alert ||| 0x01 } ∧
      t.eng = { s.eng with pathComplete := s.eng.pathComplete || s.eng.markerPlaced } := by
  have last : s.wr.closeIsLast c = true := (Writer.closeIsLast_iff noAbort asked).mpr limit
  have stopped : State.limitClose (State.raise { s.writeEnded with wr := s.wr.pageGone } .page) c = { s.writeEnded with
      wr := s.wr.pageGone.stop, win := { s.win with alert := s.win.alert ||| 0x01 }
      eng := { s.eng with pathComplete := s.eng.pathComplete || s.eng.markerPlaced } } := by
    rw [State.limitClose_of_asked asked (by exact noAbort) (by exact noFlush)]
    rfl
  have okay : s.writeEnded.writerOkay d = { s.writeEnded with
      wr := s.wr.pageGone.stop.offered s.now c.reports, win := { s.win with alert := s.win.alert ||| 0x01 }
      eng := { s.eng with pathComplete := s.eng.pathComplete || s.eng.markerPlaced } } := by
    have sameTask : s.writeEnded.wr.task = .closed c := task
    have closed : s.writeEnded.writerOkay d = s.writeEnded.closeComplete c := by simp only [State.writerOkay, sameTask]
    rw [closed, State.closeComplete_of_last (s := s.writeEnded) last, State.offerAll_eq]
    have same : State.limitClose (State.raise { s.writeEnded with wr := s.writeEnded.wr.pageGone } .page) c = _ := stopped
    rw [same]
    rfl
  have kept := Writer.offered_of_done (w := s.wr.pageGone.stop) s.now rfl c.reports
  refine ⟨_, exec_writerOkay_of_eng free quiet noReset fills outstanding okay rfl rfl, ?_⟩
  dsimp only
  rw [kept]
  refine ⟨rfl, rfl, rfl, rfl, fun noMarker noFault => ?_, rfl, rfl⟩
  have noReports : c.reports = [] := by simp only [Closing.reports, noMarker]
  rw [noReports]
  exact Writer.stop_lost (w := s.wr.pageGone) noFault

/-- A taken slot's FILLING write opens its page (R132). -/
theorem fillAnswered {x : GoodSlot} {r : Rec} {rest : List Item} (noAbort : s.wr.aborting = false)
    (task : s.wr.task = .fill x) (queue : s.wr.queue = .record r :: rest) (size : 512 ≤ x.entry.size.toNat) :
    exec (.response .writer k true d) s = .next { s.writeEnded with wr := { s.wr with
      state := .opened, reread := .absent, task := .none, page := some x.page } } :=
  exec_writerOkay_of_eng free quiet noReset fills outstanding
    (State.writerOkay_fill (s := s.writeEnded) d noAbort task queue size) rfl rfl

/-- The page header's write is followed by the CLOSED write (R137). -/
theorem headerAnswered {c : Closing} (task : s.wr.task = .header c) :
    exec (.response .writer k true d) s = .next { s.writeEnded with wr := { s.wr with task := .closed c } } := by
  refine exec_writerOkay_of_eng free quiet noReset fills outstanding ?_ rfl rfl
  have sameTask : s.writeEnded.wr.task = .header c := task
  simp only [State.writerOkay, sameTask]
  rfl

/-- A slot table read before the last is followed by the next (R129). -/
theorem tableAnswered {es : List SlotEntry} (noAbort : s.wr.aborting = false) (task : s.wr.task = .table es)
    (more : es.length + 4 < 16) : exec (.response .writer k true d) s =
      .next { s.writeEnded with wr := { s.wr with task := .table (es ++ slotEntriesOf d) } } := by
  refine exec_writerOkay_of_eng free quiet noReset fills outstanding ?_ rfl rfl
  have sameTask : s.writeEnded.wr.task = .table es := task
  have goesOn : ¬ s.writeEnded.wr.aborting = true := by simp [State.writeEnded, noAbort]
  simp only [State.writerOkay, sameTask]
  rw [if_neg goesOn, if_pos (by rw [List.length_append]; exact more)]
  rfl

end

/-! ## The obligation -/

/-- Settles O47: every answer to an access of the writer, while pages are filled. -/
theorem pageWritesAnswered : Obligations.PageWritesAnswered := by
  refine ⟨fun s p r r' rest rq k g d free quiet noReset fills opened page queue task noAbort notDue outstanding => ?_,
    exec_writerError_spec, fun s rq k g d free quiet noReset fills noAbort noFlush outstanding => ?_,
    fun w slot e rest => ⟨rfl, examineSlots_cons w slot e rest⟩⟩
  · obtain ⟨fits, full⟩ := recordAnswered (d := d) free quiet noReset fills outstanding opened page queue task noAbort notDue
    exact ⟨fun room => ⟨_, fits room, rfl, rfl, rfl, rfl, rfl, rfl⟩, fun tight => ⟨_, full tight, rfl, rfl, rfl, rfl, rfl, rfl⟩⟩
  · have okay {t : State} := exec_writerOkay_of_eng (d := d) (t := t) free quiet noReset fills outstanding
    refine ⟨fun c task asked below => ?_,
      fun c task cause noMarker noFault => endCloseAnswered free quiet noReset fills outstanding task cause noMarker noFault,
      fun c task asked limit => limitCloseAnswered free quiet noReset fills outstanding noAbort noFlush task asked limit,
      fun x r rest task queue size =>
        ⟨_, fillAnswered free quiet noReset fills outstanding noAbort task queue size, rfl, rfl, rfl⟩,
      fun c task => ⟨_, headerAnswered free quiet noReset fills outstanding task, rfl, rfl, rfl⟩,
      fun es task more => ⟨_, slotEntriesOf d, tableAnswered free quiet noReset fills outstanding noAbort task more, rfl,
        rfl, rfl, rfl, rfl⟩,
      fun p r opened page task notDue =>
        lastRecordAnswered free quiet noReset fills outstanding noAbort noFlush opened page task notDue,
      fun es failed good task all examined => ?_, fun x todo good task state => ?_⟩
    · intro report reports w
      have sameReports : c.reports = reports := by
        simp only [Closing.reports, reports]
        cases c.marker with
        | none => rfl
        | some m => exact closeReport_done m
      have answered := closeAnswered (d := d) free quiet noReset fills outstanding noAbort noFlush task asked below
      rw [sameReports] at answered
      exact answered
    · have answered := State.writerOkay_lastTable (d := d) noAbort task all examined
      obtain ⟨fills', starves, rereads⟩ := State.afterRejects_spec (s := s.writeEnded) (good := good) noFlush
      by_cases rejections : failed = []
      · rw [if_pos rejections] at answered
        have eng := State.afterRejects_eng (s := s.writeEnded) noFlush good
        refine ⟨_, okay answered (by rw [eng]; rfl) (by rw [eng]; rfl), fun some => absurd rejections some,
          fun x _ isGood => ?_, fun _ none idle => ?_, fun _ none starved => ?_, eng⟩
        · rw [fills' x isGood]
          exact ⟨rfl, rfl⟩
        · rw [starves none idle]
          exact ⟨rfl, rfl⟩
        · rw [rereads none starved]
          exact ⟨rfl, rfl⟩
      · rw [if_neg rejections] at answered
        exact ⟨_, okay answered rfl rfl, fun _ => ⟨rfl, rfl⟩, fun _ none => absurd none rejections,
          fun none => absurd none rejections, fun none => absurd none rejections, rfl⟩
    · intro w
      have answered := State.writerOkay_reject (d := d) noAbort task
      obtain ⟨sameState, sameReread, -, sameFlush⟩ := Writer.offer_keeps_state s.wr s.now (.slotReject x.slot x.reason s.now)
      have noFlush' : w.flushing = false := sameFlush.trans noFlush
      obtain ⟨fills', starves, rereads⟩ := State.afterRejects_spec (s := { s.writeEnded with wr := w }) (good := good) noFlush'
      by_cases more : todo = []
      · have eng := State.afterRejects_eng (s := { s.writeEnded with wr := w }) noFlush' good
        have ended : s.writeEnded.writerOkay d = State.afterRejects { s.writeEnded with wr := w } good :=
          answered.trans (if_pos more)
        refine ⟨_, okay ended (by rw [eng]; rfl) (by rw [eng]; rfl), fun some => absurd more some,
          fun y _ isGood => ?_, fun _ none idle => ?_, fun _ none starved => ?_, eng⟩
        · rw [fills' y isGood]
          exact ⟨rfl, rfl⟩
        · rw [starves none (sameState.trans idle)]
          exact ⟨rfl, rfl⟩
        · rw [rereads none (sameState.trans starved)]
          have reread : w.reread = s.wr.reread := sameReread
          refine ⟨?_, rfl⟩
          rw [← reread]
      · have next : s.writeEnded.writerOkay d = { s.writeEnded with wr := { w with task := .reject todo good } } :=
          answered.trans (if_neg more)
        exact ⟨_, okay next rfl rfl, fun _ => ⟨rfl, rfl⟩, fun _ none => absurd none more, fun none => absurd none more,
          fun none => absurd none more, rfl⟩

end Sys2Proof.Machine
end

section
/-! PROOFS. The end of the timebase and the flush of the result path that follows it (O19; R142, R155, R160 to R162). -/

namespace Sys2Proof.Machine

/-! ## When the timebase ends (R155) -/

theorem State.timebaseEndDue_eq {s : State} (runs : s.tb.runs = true) (last : s.tb.count.toNat = 2 ^ 48 - 1)
    (noReset : s.eng.resetPending = false) (state : s.eng.state = .running ∨ s.eng.state = .draining) :
    s.timebaseEndDue = true := by
  have count : s.tb.count = BitVec.allOnes 48 := BitVec.eq_of_toNat_eq (by rw [last]; rfl)
  rcases state with state | state <;> simp [State.timebaseEndDue, runs, count, noReset, state]

/-! ## The flush begins (R142) -/

/-- The writer that holds the FAULT record. -/
def Writer.holdingFault (w : Writer) (now : Tick) : Writer :=
  { w with faultRecord := some (timebaseFault now), flushing := true, endTaken := false }

theorem State.beginFlush_of_done {s : State} (done : s.wr.state = .done) :
    s.beginFlush = { s with wr := s.wr.lose 1, eng := { s.eng with pathComplete := true } } := by
  unfold State.beginFlush
  exact if_pos done

/-- A STARVED writer with no reread under way has no page to come (log 15). -/
theorem State.beginFlush_of_starved {s : State} (starved : s.wr.state = .starved) (task : s.wr.task = .none) :
    s.beginFlush = State.writerComplete { s with wr := s.wr.holdingFault s.now } := by
  unfold State.beginFlush
  rw [if_neg (by simp [starved])]
  exact if_pos ⟨starved, task⟩

/-- Any other writer flushes. -/
theorem State.beginFlush_of_flushing {s : State} (going : s.wr.state ≠ .done)
    (comes : ¬ (s.wr.state = .starved ∧ s.wr.task = .none)) :
    s.beginFlush = { s with wr := (s.wr.holdingFault s.now).decideClose s.now } := by
  unfold State.beginFlush
  rw [if_neg going]
  exact if_neg comes

/-- Of Engine Control a flush can only complete the result path. -/
theorem State.beginFlush_eng (s : State) :
    s.beginFlush.eng = { s.eng with pathComplete := s.beginFlush.eng.pathComplete } := by
  by_cases done : s.wr.state = .done
  · rw [State.beginFlush_of_done done]
  · by_cases starved : s.wr.state = .starved ∧ s.wr.task = .none
    · rw [State.beginFlush_of_starved starved.1 starved.2]
      rfl
    · rw [State.beginFlush_of_flushing done starved]

/-- The writer at the beginning of a flush, once the stop of the blocks has offered its records. -/
theorem State.beginFlush_wr {s u : State} {rs : List Rec} (wr : u.wr = s.wr.offered s.now rs) (now : u.now = s.now) :
    (s.wr.state = .idle ∨ s.wr.state = .opened ∨ (s.wr.state = .starved ∧ s.wr.task ≠ .none) →
      u.beginFlush.wr.state = s.wr.state ∧ u.beginFlush.wr.flushing = true ∧
      u.beginFlush.wr.faultRecord = some (timebaseFault s.now)) ∧
    (s.wr.state = .done → u.beginFlush.eng.pathComplete = true ∧
      u.beginFlush.wr = { s.wr with lost := u.beginFlush.wr.lost } ∧
      u.beginFlush.wr.lost.toNat = lostAfter s.wr.lost (rs.length + 1)) ∧
    (s.wr.state = .starved → s.wr.task = .none → u.beginFlush.eng.pathComplete = true ∧
      u.beginFlush.wr.state = .done ∧ u.beginFlush.wr.queue = [] ∧
      u.beginFlush.wr.lost.toNat = lostAfter s.wr.lost (recordCount s.wr.queue + rs.length + 1)) := by
  have state : u.wr.state = s.wr.state := by rw [wr]; simp
  have total : satAdd u.wr.lost (recordCount u.wr.queue) = satAdd s.wr.lost (recordCount s.wr.queue + rs.length) := by
    rw [wr]
    exact Writer.offered_total _ _ _
  have task (notOpened : s.wr.state ≠ .opened) : u.wr.task = s.wr.task := by
    rw [wr]
    exact Writer.offered_task _ notOpened _
  refine ⟨fun flushes => ?_, fun done => ?_, fun starved noTask => ?_⟩
  · have going : u.wr.state ≠ .done := by
      rw [state]
      rcases flushes with h | h | ⟨h, -⟩ <;> simp [h]
    have comes : ¬ (u.wr.state = .starved ∧ u.wr.task = .none) := by
      rintro ⟨isStarved, isNone⟩
      rw [state] at isStarved
      rcases flushes with h | h | ⟨-, h⟩
      · simp [h] at isStarved
      · simp [h] at isStarved
      · exact h ((task (by simp [isStarved])).symm.trans isNone)
    rw [State.beginFlush_of_flushing going comes, now]
    simp only [Writer.decideClose_frame]
    exact ⟨state, rfl, rfl⟩
  · have notKept : s.wr.keeps = false := by simp [Writer.keeps, done]
    have kept := Writer.offered_of_not_keeps s.now notKept rs
    have lost := Writer.offered_lost s.now notKept rs
    rw [State.beginFlush_of_done (state.trans done), wr]
    refine ⟨rfl, ?_, ?_⟩
    · simp only [Writer.lose]
      rw [kept]
    · simp only [Writer.lose, lost, satAdd_satAdd, satAdd_toNat]
      rfl
  · rw [State.beginFlush_of_starved (state.trans starved) ((task (by simp [starved])).trans noTask)]
    refine ⟨rfl, rfl, rfl, ?_⟩
    simp only [State.writerComplete, Writer.stop, Writer.discardQueue, Writer.lose, Writer.holdingFault, satAdd_satAdd,
      Option.isSome_some, if_true]
    rw [← satAdd_satAdd, total, satAdd_satAdd, satAdd_toNat]
    rfl

/-! ## The flush (R142) -/

theorem State.writerWorks_of_flushing {s : State} (faulted : s.eng.state = .faulted) (flushing : s.wr.flushing = true) :
    s.writerWorks = true :=
  State.writerWorks_of_session (.inr (.inr (.inr (.inr (.inl ⟨faulted, flushing⟩)))))

/-- An answer of OKAY goes to the writer at work, in any state but PREPARING. -/
theorem State.exec_writerOkay_of_works {s t : State} {rq : Request} {k : Byte} {g : Nat} (d : BusData) (free : s.free)
    (quiet : s.port.quiet = none) (noReset : s.eng.resetPending = false) (works : s.writerWorks = true)
    (outstanding : s.port.writer = .outstanding rq k g) (okay : s.writeEnded.writerOkay d = t)
    (state : t.eng.state ≠ .preparing) : exec (.response .writer k true d) s = .next t := by
  rw [exec_response _ _ _ _ s free, State.takeResponse_matched (r := .writer) quiet outstanding]
  have answered : s.writeEnded.writerAnswer rq.addr (.okay d) = t := by
    have works' : s.writeEnded.writerWorks = true := works
    have noReset' : s.writeEnded.eng.resetPending = false := noReset
    rw [← okay]
    simp only [State.writerAnswer, works', noReset']
    rfl
  have answer : State.answer { s with port := s.port.ended .writer } .writer rq (responseAnswer true d) = t.afterAnswer := by
    rw [← answered]
    rfl
  rw [answer, State.afterAnswer_of_state state]

/-- The last record of the queue is followed by the FAULT record, in this page or, where it does not fit, the next. -/
theorem Writer.decideClose_of_flush {w : Writer} {p : Page} {f : FaultRecord} (now : Tick) (task : w.task = .none)
    (opened : w.state = .opened) (page : w.page = some p) (queue : w.queue = []) (flushing : w.flushing = true)
    (fault : w.faultRecord = some f) :
    (p.nextFree + 32 ≤ p.size.toNat → w.decideClose now = w) ∧
      (p.size.toNat < p.nextFree + 32 → w.decideClose now = w.beginClose .full now none) := by
  have decided : w.decideClose now = if p.fits 32 then w else w.beginClose .full now none := by
    unfold Writer.decideClose
    simp only [task, opened, page, queue, flushing, fault, if_true]
  rw [decided]
  exact ⟨fun fits => if_pos (decide_eq_true fits), fun full => if_neg (by simpa [Page.fits] using full)⟩

/-- The writer whose FAULT record has been written, before the close. -/
def Writer.faultWritten (w : Writer) (p : Page) (now : Tick) : Writer :=
  { w with page := some (p.after 32 now), faultRecord := none, task := .none }

/-- The FAULT record written, the page is closed with cause FAULT. -/
theorem Writer.decideClose_of_flushed {w : Writer} {p : Page} (now : Tick) (task : w.task = .none)
    (opened : w.state = .opened) (page : w.page = some p) (queue : w.queue = []) (flushing : w.flushing = true)
    (written : w.faultRecord = none) : w.decideClose now = w.beginClose .fault now none := by
  unfold Writer.decideClose
  simp only [task, opened, page, queue, flushing, written, if_true]

/-- A failure in a wind-down is a second failure (R162). -/
theorem State.pathFailure_of_faulted {s : State} (noReset : s.eng.resetPending = false) (faulted : s.eng.state = .faulted)
    (a : Word) : s.pathFailure a = { s with
      wr := { s.wr.stop with pathFailed := true }
      eng := { s.eng with secondary := true, pathComplete := true } } := by
  simp only [State.pathFailure, noReset, faulted]
  rfl

/-- Settles O19: the fatal fault at the end of the timebase, and the flush of the result path. -/
theorem timebaseEndFaults : Obligations.TimebaseEndFaults := by
  refine ⟨fun s free runs last noReset state => ?_,
    fun s f free noReset faulted flushing noAbort fault => ⟨fun idle task queue => ?_,
      fun p w opened page task queue noRequest window covers => ?_,
      fun p r rq k g d opened page task queue notDue quiet outstanding => ?_,
      fun p rq k g d opened page task queue quiet outstanding => ?_⟩,
    fun s rq k g d free quiet noReset faulted flushing outstanding => ⟨fun c task cause => ?_, ?_⟩⟩
  · have run : exec .timebaseEnd s = .next ((s.faulting .timebaseEnd 0).stopBlocks.beginFlush) := by
      rw [exec_timebaseEnd s free, State.takeTimebaseEnd, if_pos (State.timebaseEndDue_eq runs last noReset state),
        State.fatalFault_timebaseEnd]
    refine ⟨_, run, ?_⟩
    obtain ⟨eng, wr, tb, win, -, params, links, pins⟩ := s.faultStopped_spec .timebaseEnd 0
    obtain ⟨cal, lanes, chans, power, queue, inFlight, -⟩ := s.faultStopped_blocks .timebaseEnd 0
    generalize (s.faulting .timebaseEnd 0).stopBlocks = u at *
    have now : u.now = s.now := by simp only [State.now, tb]
    obtain ⟨flushes, done, starved⟩ := State.beginFlush_wr wr now
    have flushed := u.beginFlush_eng
    have sameLane (i : LaneId) : u.beginFlush.lane i = u.lane i := by simp only [State.lane, State.beginFlush_frame]
    have sameChan (ch : ChanId) : u.beginFlush.chan ch = u.chan ch := by simp only [State.chan, State.beginFlush_frame]
    simp only [sameLane, sameChan, State.beginFlush_frame]
    rw [flushed, eng]
    refine ⟨rfl, rfl, rfl, rfl, rfl, rfl, win, tb, cal, lanes, chans, power, queue, inFlight, flushes, ?_, ?_, params, links,
      pins⟩
    · exact done
    · exact starved
  · have due : s.slotTakingDue = true := by
      simp [State.slotTakingDue, State.writerWorks_of_flushing faulted flushing, idle, task, queue, flushing, fault]
    rw [exec_slotTaking s free, State.takeSlotTaking, if_pos due]
  · have wants : s.writerWants = some ({ addr := p.address + BitVec.ofNat 32 p.nextFree, len := 32, write := true
                                         data := f.bytes }, .faultRecord) := by
      simp only [State.writerWants, task, opened, page, queue, fault, flushing, if_true]
    exact State.exec_presentWriter_of_covers free noRequest noReset (State.writerWorks_of_flushing faulted flushing) window
      wants covers
  · have okay := State.writerOkay_record (s := s.writeEnded) d opened page task noAbort notDue
    have recorded : s.writeEnded.wr.recorded p (recLength r) s.writeEnded.now = { s.wr with
        queue := [], task := .none, page := some (p.after (recLength r) s.now) } := by
      have tail : s.wr.queue.tail = [] := by rw [queue, List.tail_cons]
      rw [← tail]
      rfl
    rw [recorded] at okay
    obtain ⟨stays, closes⟩ := Writer.decideClose_of_flush s.writeEnded.now (w := { s.wr with
      queue := [], task := .none, page := some (p.after (recLength r) s.now) }) rfl opened rfl rfl flushing fault
    refine ⟨_, State.exec_writerOkay_of_works d free quiet noReset (State.writerWorks_of_flushing faulted flushing)
      outstanding okay (by simp [State.writeEnded, faulted]), ?_⟩
    simp only [Writer.decideClose_frame]
    refine ⟨trivial, trivial, fault, fun fits => ?_, fun full => ?_⟩
    · rw [stays fits]
      exact ⟨rfl, rfl⟩
    · rw [closes full]
      rfl
  · have okay : s.writeEnded.writerOkay d = { s.writeEnded with
        wr := (s.wr.faultWritten p s.now).beginClose .fault s.now none } := by
      have sameTask : s.writeEnded.wr.task = .faultRecord := task
      have samePage : s.writeEnded.wr.page = some p := page
      simp only [State.writerOkay, sameTask, samePage, Option.map_some]
      rw [State.writerSettle_of_opened (by exact opened), Writer.decideClose_of_flushed _ rfl (by exact opened) rfl
        (by exact queue) (by exact flushing) rfl]
      rfl
    exact ⟨_, State.exec_writerOkay_of_works d free quiet noReset (State.writerWorks_of_flushing faulted flushing)
      outstanding okay (by simp [State.writeEnded, faulted]), rfl, rfl, rfl, rfl⟩
  · have last : s.wr.closeIsLast c = true := by simp [Writer.closeIsLast, cause]
    have okay : s.writeEnded.writerOkay d = { s.writeEnded with
        wr := s.wr.pageGone.stop.offered s.now c.reports, win := { s.win with alert := s.win.alert ||| 0x01 }
        eng := { s.eng with pathComplete := true } } := by
      have sameTask : s.writeEnded.wr.task = .closed c := task
      have closed : s.writeEnded.writerOkay d = s.writeEnded.closeComplete c := by simp only [State.writerOkay, sameTask]
      rw [closed, State.closeComplete_of_last (s := s.writeEnded) last, State.offerAll_eq]
      simp only [State.limitClose, cause]
      rfl
    refine ⟨_, State.exec_writerOkay_of_works d free quiet noReset (State.writerWorks_of_flushing faulted flushing)
      outstanding okay (by simp [faulted]), ?_⟩
    dsimp only
    rw [Writer.offered_of_done (w := s.wr.pageGone.stop) s.now rfl c.reports]
    exact ⟨rfl, rfl, rfl, rfl⟩
  · have works : s.writeEnded.writerWorks = true := State.writerWorks_of_flushing faulted flushing
    have answered : s.writeEnded.writerAnswer rq.addr .error = { s.writeEnded with
        wr := { s.wr.stop with pathFailed := true }
        eng := { s.eng with secondary := true, pathComplete := true } } := by
      have failed := State.pathFailure_of_faulted (s := s.writeEnded) noReset faulted rq.addr
      simp only [State.writerAnswer, works]
      exact failed
    have run : exec (.response .writer k false d) s = .next (s.writeEnded.writerAnswer rq.addr .error).afterAnswer := by
      rw [exec_response _ _ _ _ s free, State.takeResponse_matched (r := .writer) quiet outstanding]
      rfl
    rw [answered, State.afterAnswer_of_state (by simp [faulted])] at run
    exact ⟨_, run, rfl, rfl, rfl, rfl, rfl⟩

end Sys2Proof.Machine
end

section
/-! PROOFS. An ABORT of a session (R141, R159): the state in which the blocks are stopped, what the writer does of it, and
how its part ends. -/

namespace Sys2Proof.Machine

/-! ## The blocks stopped by an abort -/

/-- Engine Control has taken the ABORT; the writer and the blocks are still to take it. -/
def State.abortBegun (s : State) : State :=
  State.holdTimebase { s.overtakeSummary with
    eng := { s.overtakeSummary.eng with state := .ended, windDown := false, endCause := .aborted } }

theorem State.abortSession_eq (s : State) : s.abortSession = s.abortBegun.writerAbort.stopBlocks.writerAbortEnd := by
  simp only [State.abortSession, State.abortBegun]

theorem State.abortBegun_eq (s : State) : s.abortBegun = { s with
    eng := { s.eng with
      state := .ended, windDown := false, endCause := .aborted, task := s.overtakeSummary.eng.task }
    tb := { s.tb with runs := false } } := by
  unfold State.abortBegun
  rw [s.overtakeSummary_eq]
  rfl

/-- The writer's waiting request goes, unless it belongs to a close (R141, R175). -/
def State.withdrawsWriter (s : State) : Bool := s.port.writer.isWaiting && !s.wr.task.closing

/-- The writer that has taken an abort, `n` records of the abort's own among the lost (log 42). -/
def Writer.abortTaken (w : Writer) (withdrawn : Bool) (n : Nat) : Writer :=
  { w with queue := [], aborting := true, lost := satAdd w.lost (recordCount w.queue + n)
           task := if withdrawn then .none else w.task }

theorem State.writerAbort_port (s : State) : s.writerAbort.port = { s.port with writer := s.writerAbort.port.writer } := by
  unfold State.writerAbort State.withdrawWriter
  (repeat' split) <;> rfl

theorem State.abortBegun_stopRecords (s : State) (cal : List Entry) :
    s.abortBegun.writerAbort.stopRecords cal = s.stopRecords cal := by
  have begun := s.abortBegun_eq
  generalize s.abortBegun = u at *
  refine State.stopRecords_congr ?_ ?_ ?_ cal <;> simp only [State.writerAbort_frame] <;> rw [begun]

/-- Engine Control and the rest of the state once an abort has stopped the blocks (R159). -/
theorem State.abortStopped_spec (s : State) :
    let t := s.abortBegun.writerAbort.stopBlocks
    t.eng = { s.eng with state := .ended, windDown := false, endCause := .aborted, converterIdle := true
                         task := s.overtakeSummary.eng.task } ∧
      t.tb = { s.tb with runs := false } ∧ t.win = s.win ∧ t.params = s.params ∧ t.links = s.links ∧ t.pins = s.pins ∧
      t.port.loader = s.port.loader.withdrawn ∧ t.port.engine = s.port.engine := by
  have begun := s.abortBegun_eq
  generalize s.abortBegun = u at *
  dsimp only
  simp only [State.stopBlocks_eng, State.stopBlocks_port, State.stopBlocks_frame, State.writerAbort_frame]
  rw [State.writerAbort_port, begun]
  exact ⟨rfl, rfl, rfl, rfl, rfl, rfl, rfl, rfl⟩

/-- The blocks an abort stops. -/
theorem State.abortStopped_blocks (s : State) :
    let t := s.abortBegun.writerAbort.stopBlocks
    t.cal = [] ∧
      (∀ i : LaneId, (t.lane i).state ≠ .active ∧ (t.lane i).state ≠ .waiting ∧ (t.lane i).state ≠ .blocked ∧
        (t.lane i).acceptedHead = none) ∧
      (∀ ch : ChanId, t.chan ch = (s.chan ch).sessionStop) ∧
      t.conv.power = .off ∧ t.conv.queue = [] ∧ t.conv.inFlight = none ∧ t.conv.closing = some .fault := by
  have chans : s.abortBegun.writerAbort.chans = s.chans := by
    rw [s.abortBegun.writerAbort_frame.2.2.2.2.2.2.1, State.abortBegun_eq]
  obtain ⟨cal, lanes, stopped, conv⟩ := s.abortBegun.writerAbort.stopBlocks_spec
  exact ⟨cal, lanes, fun ch => (stopped ch).trans (by simp only [State.chan, chans]), conv⟩

/-- A DONE writer is offered the abort's records and loses them; its request is left. -/
theorem State.abortStopped_of_done {s : State} (done : s.wr.state = .done) :
    s.abortBegun.writerAbort.stopBlocks.wr = s.wr.offered s.now (s.stopRecords s.cal) := by
  have records := s.abortBegun_stopRecords s.cal
  have taken : s.abortBegun.writerAbort = s.abortBegun := by
    have isDone : s.abortBegun.wr.state = .done := by rw [State.abortBegun_eq]; exact done
    unfold State.writerAbort
    exact if_pos isDone
  rw [taken] at records ⊢
  have cal : s.abortBegun.cal = s.cal := by rw [State.abortBegun_eq]
  rw [State.stopBlocks_wr, cal, records, State.abortBegun_eq]
  rfl

/-- Any other writer discards its queue, and the abort's records are lost with it. -/
theorem State.abortStopped_wr {s : State} (going : s.wr.state ≠ .done) :
    s.abortBegun.writerAbort.stopBlocks.wr = s.wr.abortTaken s.withdrawsWriter (s.stopRecords s.cal).length ∧
      s.abortBegun.writerAbort.stopBlocks.port.writer = (if s.withdrawsWriter then .none else s.port.writer) := by
  have records := s.abortBegun_stopRecords s.cal
  have begun := s.abortBegun_eq
  have goes : s.abortBegun.wr.state ≠ .done := by rw [begun]; exact going
  obtain ⟨wr, port⟩ := State.writerAbort_wr goes
  have cal : s.abortBegun.writerAbort.cal = s.cal := by simp only [State.writerAbort_frame]; rw [begun]
  rw [State.stopBlocks_wr, State.stopBlocks_port, cal, records]
  generalize s.abortBegun = u at *
  have sameWr : u.wr = s.wr := by rw [begun]
  have samePort : u.port = s.port := by rw [begun]
  rw [sameWr, samePort] at wr port
  have notKept : u.writerAbort.wr.keeps = false := by rw [wr]; simp [Writer.keeps]
  refine ⟨?_, port⟩
  rw [Writer.offered_of_not_keeps _ notKept, Writer.offered_lost _ notKept, wr]
  simp only [Writer.discardQueue, Writer.lose, satAdd_satAdd]
  rfl

/-! ## The end of the writer's abort (R141) -/

section
variable {s : State}

theorem State.writerAbortEnd_of_done (done : s.wr.state = .done) :
    s.writerAbortEnd = { s with eng := { s.eng with pathComplete := true } } := by
  unfold State.writerAbortEnd
  exact if_pos done

variable (going : s.wr.state ≠ .done)
include going

/-- An access under way or a close in progress goes on. -/
theorem State.writerAbortEnd_of_pending (pending : s.wr.task.closing = true ∨ s.port.writer.isOutstanding = true) :
    s.writerAbortEnd = s := by
  unfold State.writerAbortEnd
  rw [if_neg going]
  refine if_pos ?_
  rcases pending with h | h <;> simp [h]

variable (noClose : s.wr.task.closing = false) (answered : s.port.writer.isOutstanding = false)
include noClose answered

/-- A page that holds a record is closed with cause ABORTED. -/
theorem State.writerAbortEnd_of_record {p : Page} (opened : s.wr.state = .opened) (page : s.wr.page = some p)
    (record : 0 < p.records) : s.writerAbortEnd = { s with wr := s.wr.beginClose .aborted s.now none } := by
  have notDone : ¬ s.wr.state = .done := going
  unfold State.writerAbortEnd
  rw [if_neg notDone, if_neg (by simp [noClose, answered])]
  simp only [opened, page]
  exact if_pos record

/-- Without one the writer is DONE and the path complete. -/
theorem State.writerAbortEnd_of_empty (empty : s.wr.state ≠ .opened ∨ ∃ p, s.wr.page = some p ∧ p.records = 0) :
    s.writerAbortEnd = s.writerComplete := by
  unfold State.writerAbortEnd
  rw [if_neg going, if_neg (by simp [noClose, answered])]
  split
  · next p opened page =>
    rcases empty with notOpened | ⟨p', page', none⟩
    · contradiction
    · obtain rfl := Option.some.inj (page.symm.trans page')
      exact if_neg (by omega)
  · rfl

end

/-- Of Engine Control the end of the writer's abort can only complete the result path. -/
theorem State.writerAbortEnd_eng (s : State) :
    s.writerAbortEnd.eng = { s.eng with pathComplete := s.writerAbortEnd.eng.pathComplete } := by
  unfold State.writerAbortEnd
  (repeat' split) <;> rfl

/-- Stopping a writer that has taken an abort loses no more: its queue is empty, and there is no FAULT record. -/
theorem Writer.stop_abortTaken (w : Writer) (withdrawn : Bool) (n : Nat) (noFault : w.faultRecord = none) :
    (w.abortTaken withdrawn n).stop.lost = (w.abortTaken withdrawn n).lost ∧ (w.abortTaken withdrawn n).stop.queue = [] := by
  have noneLost (v : Word) : satAdd v 0 = v := BitVec.eq_of_toNat_eq (by rw [satAdd_toNat]; have := v.isLt; omega)
  refine ⟨?_, rfl⟩
  simp [Writer.stop, Writer.discardQueue, Writer.lose, Writer.abortTaken, noFault, recordCount, noneLost]

/-- What the abort has counted lost is all that is: its end begins a close or stops an empty writer. -/
theorem State.writerAbortEnd_lost {s : State} {w : Writer} {withdrawn : Bool} {n : Nat}
    (wr : s.wr = w.abortTaken withdrawn n) (noFault : w.faultRecord = none) :
    s.writerAbortEnd.wr.lost = satAdd w.lost (recordCount w.queue + n) := by
  have stopped : s.wr.stop.lost = s.wr.lost := by rw [wr]; exact (w.stop_abortTaken withdrawn n noFault).1
  have kept : s.writerAbortEnd.wr.lost = s.wr.lost := by
    unfold State.writerAbortEnd
    (repeat' split)
    · rfl
    · rfl
    · rfl
    · exact stopped
    · exact stopped
  rw [kept, wr]
  rfl

/-- Nor does it hold anything any more. -/
theorem State.writerAbortEnd_queue {s : State} (empty : s.wr.queue = []) : s.writerAbortEnd.wr.queue = [] := by
  unfold State.writerAbortEnd
  (repeat' split)
  · exact empty
  · exact empty
  · exact empty
  · rfl
  · rfl

end Sys2Proof.Machine
end

section
/-! PROOFS. An ABORT of a preparation (O15; R153, R175): what it changes at once, how it ends, and the answers it waits
for. -/

namespace Sys2Proof.Machine

/-! ## The ABORT taken -/

theorem exec_abort_of_accepts {s : State} (free : s.free) (accepted : s.accepts .abort) :
    exec .abort s = .next (s.setResult .accepted).takeAbort := by
  rw [exec_abort s free, State.command_of_allowed _ (s.accepts_abort_iff.mp accepted)]

/-- The command accepted and the abort begun, in the read phase. -/
def State.readAborted (s : State) : State := { s with eng := { s.eng with result := .accepted, aborting := true } }

/-- The same in the initial fetch: the Calendar is emptied and the waiting requests are withdrawn. -/
def State.fetchAborted (s : State) : State :=
  { s with
    eng := { s.eng with result := .accepted, aborting := true }
    cal := []
    port := { s.port with loader := s.port.loader.withdrawn, writer := s.port.writer.withdrawn } }

/-- Every lane OFF, and no access of the Loader under way. -/
def State.lanesOff (s : State) : State :=
  { s with loader := { s.loader with lanes := Vector.replicate 4 Lane.off, access := none } }

theorem State.lanesOff_lane (s : State) (i : LaneId) : (s.lanesOff.lane i).state = .off := by
  simp [State.lanesOff, State.lane, Lane.off]

theorem exec_abort_reading {s : State} (free : s.free) (accepted : s.accepts .abort) (preparing : s.eng.state = .preparing)
    (reading : s.eng.checked = false) : exec .abort s = .next s.readAborted.prepareAbortEnd := by
  have taken : (s.setResult .accepted).takeAbort = (s.setResult .accepted).abortPreparation := if_pos preparing
  have unchecked : ¬ (s.setResult .accepted).eng.checked = true := by simp [State.setResult, reading]
  rw [exec_abort_of_accepts free accepted, taken, State.abortPreparation]
  simp only
  rw [if_neg unchecked]
  rfl

theorem exec_abort_fetching {s : State} (free : s.free) (accepted : s.accepts .abort) (preparing : s.eng.state = .preparing)
    (fetching : s.eng.checked = true) : exec .abort s = .next s.fetchAborted.prepareAbortEnd := by
  have taken : (s.setResult .accepted).takeAbort = (s.setResult .accepted).abortPreparation := if_pos preparing
  have checked : (s.setResult .accepted).eng.checked = true := fetching
  rw [exec_abort_of_accepts free accepted, taken, State.abortPreparation]
  simp only
  rw [if_pos checked]
  rfl

/-! ## How the abort ends -/

/-- In the read phase it waits for the read under way. -/
theorem State.prepareAbortEnd_of_reading {s : State} (reading : s.eng.checked = false) :
    (s.port.engine.isOutstanding = true → s.prepareAbortEnd = s) ∧
      (s.port.engine.isOutstanding = false → s.prepareAbortEnd =
        State.failPrepare { s with eng := { s.eng with staleRead := s.port.engine.isWaiting } } .aborted) := by
  have unchecked : ¬ s.eng.checked = true := by simp [reading]
  refine ⟨fun outstanding => ?_, fun answered => ?_⟩
  · rw [State.prepareAbortEnd, if_neg unchecked, if_pos outstanding]
  · rw [State.prepareAbortEnd, if_neg unchecked, if_neg (by simp [answered])]

theorem PortRequest.withdrawn_of_answered {q : PortRequest} (answered : q.isOutstanding = false) : q.withdrawn = .none := by
  cases q with
  | none => rfl
  | waiting rq => rfl
  | outstanding rq n t => cases answered

theorem PortRequest.withdrawn_of_outstanding {q : PortRequest} (outstanding : q.isOutstanding = true) : q.withdrawn = q := by
  cases q with
  | none => rfl
  | waiting rq => cases outstanding
  | outstanding rq n t => rfl

/-- An ABORT that has to wait for an answer leaves the engine PREPARING. -/
theorem abortWaits {s : State} (free : s.free) (accepted : s.accepts .abort) (preparing : s.eng.state = .preparing) :
    (s.eng.checked = false → s.port.engine.isOutstanding = true → exec .abort s = .next s.readAborted) ∧
    (s.eng.checked = true → s.port.loader.isOutstanding = true ∨ s.port.writer.isOutstanding = true →
      ∃ t, exec .abort s = .next t ∧ (s.port.loader.isOutstanding = true → t.loader = s.loader) ∧
        (s.port.loader.isOutstanding = false → ∀ i : LaneId, (t.lane i).state = .off) ∧
        t = { s.fetchAborted with loader := t.loader }) := by
  refine ⟨fun reading outstanding => ?_, fun fetching outstanding => ?_⟩
  · rw [exec_abort_reading free accepted preparing reading,
      (State.prepareAbortEnd_of_reading (s := s.readAborted) reading).1 outstanding]
  · have run := exec_abort_fetching free accepted preparing fetching
    obtain ⟨waits, fetched, -⟩ := State.prepareAbortEnd_of_checked (s := s.fetchAborted) fetching
    have loader : s.fetchAborted.port.loader.isOutstanding = s.port.loader.isOutstanding :=
      PortRequest.isOutstanding_withdrawn _
    have writer : s.fetchAborted.port.writer.isOutstanding = s.port.writer.isOutstanding :=
      PortRequest.isOutstanding_withdrawn _
    rw [loader] at waits fetched
    rw [writer] at fetched
    by_cases loading : s.port.loader.isOutstanding = true
    · rw [waits loading] at run
      exact ⟨_, run, fun _ => rfl, fun answered => absurd loading (by simp [answered]), rfl⟩
    · have answered : s.port.loader.isOutstanding = false := by simpa using loading
      rw [fetched answered (outstanding.resolve_left loading)] at run
      exact ⟨_, run, fun h => absurd h loading, fun _ => s.fetchAborted.lanesOff_lane, rfl⟩

/-- With nothing outstanding the engine is OFF at once. -/
theorem abortEndsAtOnce {s : State} (free : s.free) (accepted : s.accepts .abort) (preparing : s.eng.state = .preparing)
    (answered : ∀ r, (s.port.request r).isOutstanding = false) :
    ∃ t, exec .abort s = .next t ∧ t.eng.state = .off ∧ t.eng.prepError = .aborted ∧ t.eng.result = .accepted ∧
      t.eng.endCause = s.eng.endCause ∧ t.eng.session = s.eng.session ∧
      t.win = { s.win with alert := s.win.alert ||| 0x80 } ∧
      (s.eng.checked = false → t.eng.staleRead = s.port.engine.isWaiting ∧ t = { s with eng := t.eng, win := t.win }) ∧
      (s.eng.checked = true → t.cal = [] ∧ (∀ i : LaneId, (t.lane i).state = .off) ∧
        t = { s with eng := t.eng, win := t.win, cal := [], loader := t.loader,
                     port := { s.port with loader := .none, writer := .none } }) := by
  by_cases fetching : s.eng.checked = true
  · have loader : s.port.loader.withdrawn = .none := PortRequest.withdrawn_of_answered (answered .loader)
    have writer : s.port.writer.withdrawn = .none := PortRequest.withdrawn_of_answered (answered .writer)
    have run := exec_abort_fetching free accepted preparing fetching
    have gone : s.fetchAborted.port = { s.port with loader := .none, writer := .none } := by
      rw [State.fetchAborted, loader, writer]
    rw [(State.prepareAbortEnd_of_checked (s := s.fetchAborted) fetching).2.2 (by rw [gone]; rfl) (by rw [gone]; rfl)] at run
    refine ⟨_, run, rfl, rfl, rfl, rfl, rfl, rfl, fun reading => absurd fetching (by simp [reading]),
      fun _ => ⟨rfl, s.fetchAborted.lanesOff_lane, ?_⟩⟩
    rw [← gone]
    rfl
  · have reading : s.eng.checked = false := by simpa using fetching
    have run := exec_abort_reading free accepted preparing reading
    rw [(State.prepareAbortEnd_of_reading (s := s.readAborted) reading).2 (answered .engine)] at run
    exact ⟨_, run, rfl, rfl, rfl, rfl, rfl, rfl, fun _ => ⟨rfl, rfl⟩, fun h => absurd h fetching⟩

/-! ## The answers the abort waits for -/

section
variable {s : State} (preparing : s.eng.state = .preparing) (aborting : s.eng.aborting = true)
include preparing aborting

/-- A Loader that no longer works discards what it is given. -/
theorem State.loaderAnswer_of_aborting (a : Answer) :
    s.loaderAnswer a = { s with loader := { s.loader with access := none } } := by
  have idle : s.loaderWorks = false := by
    simp [State.loaderWorks, State.takesCues, State.initialFetch, preparing, aborting]
  unfold State.loaderAnswer
  cases access : s.loader.access with
  | none => simp only [← access]
  | some acc => simp only [idle, Bool.not_false, if_true]

/-- So does the writer. -/
theorem State.writerAnswer_of_aborting (addr : Word) (a : Answer) :
    s.writerAnswer addr a = { s with wr := { s.wr with task := .none } } := by
  have idle : s.writerWorks = false := by
    simp [State.writerWorks, State.initialFetch, preparing, aborting]
  unfold State.writerAnswer
  exact if_pos (by simp [idle])

variable (noReset : s.eng.resetPending = false)
include noReset

theorem State.afterAnswer_of_aborting : s.afterAnswer = s.prepareAbortEnd := by
  unfold State.afterAnswer
  exact if_pos (by simp [noReset, preparing, aborting])

/-- Whatever the read gives, its answer ends the preparation. -/
theorem State.engineAnswer_of_aborting (reading : s.eng.checked = false) (read : s.eng.task.isRead = true)
    (answered : s.port.engine = .none) (a : Answer) : ∃ stale, (s.engineAnswer a).afterAnswer =
      State.failPrepare { s with eng := { s.eng with staleRead := stale } } .aborted := by
  have off : (s.failPrepare .aborted).afterAnswer = s.failPrepare .aborted :=
    State.afterAnswer_of_state (by simp [(s.failPrepare_spec .aborted).1])
  cases task : s.eng.task with
  | readFirst =>
    by_cases stale : s.eng.staleRead = true
    · refine ⟨false, ?_⟩
      have dropped : s.engineAnswer a = { s with eng := { s.eng with staleRead := false } } := by
        simp [State.engineAnswer, noReset, task, stale]
      rw [dropped, State.afterAnswer_of_aborting (by exact preparing) (by exact aborting) (by exact noReset),
        (State.prepareAbortEnd_of_reading (by exact reading)).2 (by simp [answered, PortRequest.isOutstanding])]
      simp only [answered]
      rfl
    · refine ⟨s.eng.staleRead, ?_⟩
      have failed : s.engineAnswer a = s.failPrepare .aborted := by
        simp [State.engineAnswer, noReset, task, stale, aborting]
      rw [failed, off]
  | readSecond first =>
    refine ⟨s.eng.staleRead, ?_⟩
    have failed : s.engineAnswer a = s.failPrepare .aborted := by
      simp [State.engineAnswer, noReset, task, aborting]
    rw [failed, off]
  | none | summary k bytes | discard => rw [task] at read; cases read

end

/-- The preparation given up: OFF, with prepare error ABORTED and PREP. -/
def State.givenUp (s t : State) : Prop :=
  t.eng.state = .off ∧ t.eng.prepError = .aborted ∧ t.eng.session = s.eng.session ∧
    t.win = { s.win with alert := s.win.alert ||| 0x80 }

/-- The blocks that an aborted preparation leaves as they are. -/
def State.sameBlocks (s t : State) : Prop :=
  t.cal = s.cal ∧ t.chans = s.chans ∧ t.conv = s.conv ∧ t.tb = s.tb ∧ t.pins = s.pins

section
variable {s : State} {rq : Request} {k : Byte} {g : Nat} (ok : Bool) (d : BusData) (free : s.free)
  (quiet : s.port.quiet = none) (noReset : s.eng.resetPending = false) (preparing : s.eng.state = .preparing)
  (aborting : s.eng.aborting = true)
include free quiet noReset preparing aborting

theorem abortedReadAnswered (reading : s.eng.checked = false) (read : s.eng.task.isRead = true)
    (outstanding : s.port.engine = .outstanding rq k g) :
    ∃ t, exec (.response .engine k ok d) s = .next t ∧ s.givenUp t ∧ s.sameBlocks t ∧ t.loader = s.loader ∧ t.wr = s.wr := by
  obtain ⟨stale, ended⟩ := State.engineAnswer_of_aborting (s := { s with port := s.port.ended .engine }) preparing aborting
    noReset reading read rfl (responseAnswer ok d)
  have run := exec_response .engine k ok d s free
  rw [State.takeResponse_matched (r := .engine) quiet outstanding, State.answer, ended] at run
  exact ⟨_, run, ⟨rfl, rfl, rfl, rfl⟩, ⟨rfl, rfl, rfl, rfl, rfl⟩, rfl, rfl⟩

variable (fetching : s.eng.checked = true)
include fetching

theorem abortedFetchAnswered (outstanding : s.port.loader = .outstanding rq k g) :
    ∃ t, exec (.response .loader k ok d) s = .next t ∧ s.sameBlocks t ∧ t.wr = s.wr ∧
      (∀ i : LaneId, (t.lane i).state = .off) ∧ (s.port.writer.isOutstanding = false → s.givenUp t) ∧
      (s.port.writer.isOutstanding = true → t.eng = s.eng ∧ t.win = s.win) := by
  have run := exec_response .loader k ok d s free
  rw [State.takeResponse_matched (r := .loader) quiet outstanding, State.answer,
    State.loaderAnswer_of_aborting (by exact preparing) (by exact aborting),
    State.afterAnswer_of_aborting (by exact preparing) (by exact aborting) (by exact noReset)] at run
  obtain ⟨-, waits, ends⟩ := State.prepareAbortEnd_of_checked (s := { s with
    port := s.port.ended .loader
    loader := { s.loader with access := none } }) fetching
  by_cases writing : s.port.writer.isOutstanding = true
  · rw [waits rfl writing] at run
    exact ⟨_, run, ⟨rfl, rfl, rfl, rfl, rfl⟩, rfl, s.lanesOff_lane, fun answered => absurd writing (by simp [answered]),
      fun _ => ⟨rfl, rfl⟩⟩
  · have answered : s.port.writer.isOutstanding = false := by simpa using writing
    rw [ends rfl answered] at run
    exact ⟨_, run, ⟨rfl, rfl, rfl, rfl, rfl⟩, rfl, s.lanesOff_lane, fun _ => ⟨rfl, rfl, rfl, rfl⟩,
      fun h => absurd h writing⟩

theorem abortedWriteAnswered (outstanding : s.port.writer = .outstanding rq k g) :
    ∃ t, exec (.response .writer k ok d) s = .next t ∧ s.sameBlocks t ∧ t.wr = { s.wr with task := .none } ∧
      (s.port.loader.isOutstanding = false → s.givenUp t) ∧
      (s.port.loader.isOutstanding = true → t.eng = s.eng ∧ t.win = s.win ∧ t.loader = s.loader) := by
  have run := exec_response .writer k ok d s free
  rw [State.takeResponse_matched (r := .writer) quiet outstanding, State.answer,
    State.writerAnswer_of_aborting (by exact preparing) (by exact aborting),
    State.afterAnswer_of_aborting (by exact preparing) (by exact aborting) (by exact noReset)] at run
  obtain ⟨waits, -, ends⟩ := State.prepareAbortEnd_of_checked (s := { s with
    port := s.port.ended .writer
    wr := { s.wr with task := .none } }) fetching
  by_cases loading : s.port.loader.isOutstanding = true
  · rw [waits loading] at run
    exact ⟨_, run, ⟨rfl, rfl, rfl, rfl, rfl⟩, rfl, fun answered => absurd loading (by simp [answered]),
      fun _ => ⟨rfl, rfl, rfl⟩⟩
  · have answered : s.port.loader.isOutstanding = false := by simpa using loading
    rw [ends answered rfl] at run
    exact ⟨_, run, ⟨rfl, rfl, rfl, rfl, rfl⟩, rfl, fun _ => ⟨rfl, rfl, rfl, rfl⟩, fun h => absurd h loading⟩

end

end Sys2Proof.Machine
end

section
/-! PROOFS. An ABORT of a session: its effect, and the answers its close waits for (O15; R139, R141, R159). -/

namespace Sys2Proof.Machine

/-! ## The answers an aborted writer waits for (R141) -/

theorem State.writerOkay_record_of_aborting {s : State} {n : Nat} (d : BusData) (task : s.wr.task = .record n)
    (aborting : s.wr.aborting = true) : s.writerOkay d = (s.recordWritten n).writerAbortEnd := by
  have stillAborting : (s.recordWritten n).wr.aborting = true := aborting
  simp only [State.writerOkay, task, stillAborting, if_true]

theorem State.writerOkay_fill_of_aborting {s : State} {x : GoodSlot} (d : BusData) (task : s.wr.task = .fill x)
    (aborting : s.wr.aborting = true) : s.writerOkay d = s.writerAbortEnd := by
  simp only [State.writerOkay, task, aborting, if_true]

/-- The last close of an abort completes the path, whatever its cause. -/
theorem State.limitClose_of_aborting {s : State} (aborting : s.wr.aborting = true) (c : Closing) :
    s.limitClose c = s.writerComplete := by
  unfold State.limitClose
  cases c.cause with
  | full | deadline | cue => exact if_pos (by simp [aborting])
  | sessionEnd | aborted | fault => rfl

/-- A failure in a wind-down that has not yet completed is a fatal fault. -/
theorem State.pathFailure_of_ended {s : State} (noReset : s.eng.resetPending = false) (ended : s.eng.state = .ended)
    (winding : s.eng.windDown = false) (a : Word) :
    s.pathFailure a = (s.pathLost.faulting .resultPathError a).stopBlocks.faultLost := by
  rw [← State.fatalFault_resultPathError]
  simp only [State.pathFailure, noReset, ended, winding, State.pathLost]
  rfl

section
variable {s : State} {rq : Request} {k : Byte} {g : Nat} (d : BusData) (free : s.free) (quiet : s.port.quiet = none)
  (noReset : s.eng.resetPending = false) (ended : s.eng.state = .ended) (aborting : s.wr.aborting = true)
  (outstanding : s.port.writer = .outstanding rq k g)

theorem State.writerWorks_of_aborting {s : State} (ended : s.eng.state = .ended) (aborting : s.wr.aborting = true) :
    s.writerWorks = true :=
  State.writerWorks_of_session (.inr (.inr (.inr (.inr (.inr ⟨ended, aborting⟩)))))

include free quiet noReset ended aborting outstanding

theorem abortedOkay {t : State} (okay : s.writeEnded.writerOkay d = t) (eng : t.eng.state = s.eng.state) :
    exec (.response .writer k true d) s = .next t :=
  State.exec_writerOkay_of_works d free quiet noReset (State.writerWorks_of_aborting ended aborting) outstanding okay
    (by simp [eng, ended])

/-- The record under write was written: its page is closed. -/
theorem abortedRecordWritten {p : Page} {n : Nat} (opened : s.wr.state = .opened) (page : s.wr.page = some p)
    (task : s.wr.task = .record n) : ∃ t, exec (.response .writer k true d) s = .next t ∧
      t.wr.page = some (p.after n s.now) ∧
      t.wr.task = .header { cause := .aborted, seq := s.wr.closeSeq + 1, time := s.now, lost := s.wr.lost,
                            marker := none } ∧ t.eng = s.eng := by
  have written : (s.writeEnded.recordWritten n).wr.page = some (p.after n s.now) := by
    have samePage : s.writeEnded.wr.page = some p := page
    simp only [State.recordWritten, samePage]
    rfl
  have okay := State.writerOkay_record_of_aborting (s := s.writeEnded) d task aborting
  rw [State.writerAbortEnd_of_record (by simp [State.recordWritten, State.writeEnded, opened]) rfl rfl (by exact opened) written
    (Nat.succ_pos _)] at okay
  exact ⟨_, abortedOkay d free quiet noReset ended aborting outstanding okay rfl, written, rfl, rfl⟩

/-- A slot that was being taken is not used any more. -/
theorem abortedFillAnswered {x : GoodSlot} (notOpened : s.wr.state ≠ .opened) (notDone : s.wr.state ≠ .done)
    (task : s.wr.task = .fill x) :
    ∃ t, exec (.response .writer k true d) s = .next t ∧ t.wr.state = .done ∧ t.eng.pathComplete = true := by
  have okay := State.writerOkay_fill_of_aborting (s := s.writeEnded) d task aborting
  have noClose : s.writeEnded.wr.task.closing = false := by
    have sameTask : s.writeEnded.wr.task = .fill x := task
    rw [sameTask]
    rfl
  rw [State.writerAbortEnd_of_empty (s := s.writeEnded) notDone noClose rfl (.inl notOpened)] at okay
  exact ⟨_, abortedOkay d free quiet noReset ended aborting outstanding okay rfl, rfl, rfl⟩

theorem abortedHeaderWritten {c : Closing} (task : s.wr.task = .header c) :
    ∃ t, exec (.response .writer k true d) s = .next t ∧ t.wr = { s.wr with task := .closed c } ∧ t.eng = s.eng := by
  have sameTask : s.writeEnded.wr.task = .header c := task
  have okay : s.writeEnded.writerOkay d = { s.writeEnded with wr := { s.wr with task := .closed c } } := by
    simp only [State.writerOkay, sameTask]
    rfl
  exact ⟨_, abortedOkay d free quiet noReset ended aborting outstanding okay rfl, rfl, rfl⟩

/-- The CLOSED write's answer makes the writer DONE. -/
theorem abortedCloseComplete {c : Closing} (task : s.wr.task = .closed c) :
    ∃ t, exec (.response .writer k true d) s = .next t ∧ t.wr.state = .done ∧ t.wr.page = none ∧
      t.eng = { s.eng with pathComplete := true } ∧ t.win = { s.win with alert := s.win.alert ||| 0x01 } := by
  have last : s.wr.closeIsLast c = true := by simp [Writer.closeIsLast, aborting]
  have okay : s.writeEnded.writerOkay d = { s.writeEnded with
      wr := s.wr.pageGone.stop.offered s.now c.reports, win := { s.win with alert := s.win.alert ||| 0x01 }
      eng := { s.eng with pathComplete := true } } := by
    have sameTask : s.writeEnded.wr.task = .closed c := task
    have closed : s.writeEnded.writerOkay d = s.writeEnded.closeComplete c := by simp only [State.writerOkay, sameTask]
    rw [closed, State.closeComplete_of_last (s := s.writeEnded) last, State.offerAll_eq,
      State.limitClose_of_aborting (by exact aborting)]
    rfl
  refine ⟨_, abortedOkay d free quiet noReset ended aborting outstanding okay rfl, ?_⟩
  dsimp only
  rw [Writer.offered_of_done (w := s.wr.pageGone.stop) s.now rfl c.reports]
  exact ⟨rfl, rfl, rfl, rfl⟩

/-- A failure makes the abort a fault. -/
theorem abortedAccessFails (winding : s.eng.windDown = false) :
    ∃ t, exec (.response .writer k false d) s = .next t ∧ t.wr.state = .done ∧ t.eng.state = .faulted ∧
      t.eng.faultCode = some .resultPathError ∧ t.eng.faultAddr = rq.addr ∧ t.eng.endCause = s.eng.endCause ∧
      t.win = { s.win with alert := s.win.alert ||| 0x40 } := by
  have works : s.writeEnded.writerWorks = true := State.writerWorks_of_aborting ended aborting
  have answered : s.writeEnded.writerAnswer rq.addr .error = s.writeEnded.pathFailure rq.addr := by
    simp only [State.writerAnswer, works]
    rfl
  have run := exec_response .writer k false d s free
  have answer : State.answer { s with port := s.port.ended .writer } .writer rq (responseAnswer false d) =
      (s.writeEnded.writerAnswer rq.addr .error).afterAnswer := rfl
  rw [State.takeResponse_matched (r := .writer) quiet outstanding, answer, answered,
    State.pathFailure_of_ended (s := s.writeEnded) noReset ended winding] at run
  obtain ⟨eng, wr, -, win, -⟩ := s.writeEnded.pathLost.faultStopped_spec .resultPathError rq.addr
  generalize (s.writeEnded.pathLost.faulting .resultPathError rq.addr).stopBlocks = u at *
  rw [State.afterAnswer_of_state (by simp [State.faultLost, eng])] at run
  refine ⟨_, run, ?_⟩
  have done : u.wr.state = .done := by
    rw [wr, Writer.offered_of_done (w := s.writeEnded.pathLost.wr) _ rfl]
    rfl
  unfold State.faultLost
  dsimp only
  rw [eng, win]
  exact ⟨done, rfl, rfl, rfl, rfl, rfl⟩

end

end Sys2Proof.Machine
end

section
/-! PROOFS. An ABORT of a session (O15; R141, R159): the writer's part, the rest of the machine, and the obligation. -/

namespace Sys2Proof.Machine

/-! ## The writer's part (R141) -/

section
variable {u : State} {w : Writer} {q : PortRequest} {n : Nat}
  (wr : u.wr = w.abortTaken (q.isWaiting && !w.task.closing) n)
  (port : u.port.writer = if q.isWaiting && !w.task.closing then .none else q)

/-- A request of no close is withdrawn. -/
theorem withdrawnWriter_of_noClose (noClose : w.task.closing = false) :
    (if q.isWaiting && !w.task.closing then .none else q) = q.withdrawn := by
  cases q with
  | none | outstanding rq k g => rfl
  | waiting rq => exact if_pos (by rw [noClose]; rfl)

include wr port

/-- An outstanding access is answered first. -/
theorem writerAbortEnd_of_outstanding (going : w.state ≠ .done) (outstanding : q.isOutstanding = true) :
    u.writerAbortEnd.wr.state = w.state ∧ u.writerAbortEnd.wr.task = w.task ∧ u.writerAbortEnd.wr.page = w.page ∧
      u.writerAbortEnd.wr.aborting = true ∧ u.port.writer = q := by
  have kept : (q.isWaiting && !w.task.closing) = false := by
    cases q with
    | none | outstanding rq k g => rfl
    | waiting rq => cases outstanding
  rw [kept] at wr
  have same : u.port.writer = q := by rw [port, kept]; rfl
  rw [State.writerAbortEnd_of_pending (by rw [wr]; exact going) (.inr (by rw [same]; exact outstanding)), wr]
  exact ⟨rfl, rfl, rfl, rfl, same⟩

/-- A close in progress goes on. -/
theorem writerAbortEnd_of_closing (going : w.state ≠ .done) (closing : w.task.closing = true) :
    u.writerAbortEnd.wr.state = w.state ∧ u.writerAbortEnd.wr.task = w.task ∧ u.writerAbortEnd.wr.page = w.page ∧
      u.writerAbortEnd.wr.closeSeq = w.closeSeq ∧ u.writerAbortEnd.wr.aborting = true ∧
      u.port.writer = q := by
  have kept : (q.isWaiting && !w.task.closing) = false := by rw [closing, Bool.not_true, Bool.and_false]
  rw [kept] at wr
  have same : u.port.writer = q := by rw [port, kept]; rfl
  rw [State.writerAbortEnd_of_pending (by rw [wr]; exact going) (.inl (by rw [wr]; exact closing)), wr]
  exact ⟨rfl, rfl, rfl, rfl, rfl, same⟩

/-- With neither, an open page that holds a record is closed, and any other writer is DONE. -/
theorem writerAbortEnd_of_free (noClose : w.task.closing = false) (answered : q.isOutstanding = false) :
    (∀ p, w.state = .opened → w.page = some p → 0 < p.records →
      u.writerAbortEnd.wr.state = .opened ∧ u.writerAbortEnd.wr.page = some p ∧
      u.writerAbortEnd.wr.closeSeq = w.closeSeq + 1 ∧
      u.writerAbortEnd.wr.task = .header { cause := .aborted, seq := w.closeSeq + 1, time := u.now
                                           lost := u.writerAbortEnd.wr.lost, marker := none }) ∧
    (∀ p, w.state = .opened → w.page = some p → p.records = 0 →
      u.writerAbortEnd.wr.state = .done ∧ u.writerAbortEnd.wr.page = some p ∧
      u.writerAbortEnd.eng.pathComplete = true) ∧
    (w.state = .idle ∨ w.state = .starved →
      u.writerAbortEnd.wr.state = .done ∧ u.writerAbortEnd.eng.pathComplete = true) := by
  have gone : u.port.writer = .none := by
    rw [port, withdrawnWriter_of_noClose noClose]
    exact PortRequest.withdrawn_of_answered answered
  have noneOut : u.port.writer.isOutstanding = false := by rw [gone]; rfl
  have state : u.wr.state = w.state := by rw [wr]; rfl
  have samePage : u.wr.page = w.page := by rw [wr]; rfl
  have seq : u.wr.closeSeq = w.closeSeq := by rw [wr]; rfl
  have stillNone : u.wr.task.closing = false := by
    rw [wr]
    unfold Writer.abortTaken
    dsimp only
    split
    · rfl
    · exact noClose
  refine ⟨fun p opened page record => ?_, fun p opened page none => ?_, fun other => ?_⟩
  · have isOpened : u.wr.state = .opened := state.trans opened
    rw [State.writerAbortEnd_of_record (by simp [isOpened]) stillNone noneOut isOpened (samePage.trans page) record, ← seq]
    exact ⟨isOpened, samePage.trans page, rfl, rfl⟩
  · have isOpened : u.wr.state = .opened := state.trans opened
    rw [State.writerAbortEnd_of_empty (by simp [isOpened]) stillNone noneOut (.inr ⟨p, samePage.trans page, none⟩)]
    exact ⟨rfl, samePage.trans page, rfl⟩
  · have notDone : u.wr.state ≠ .done := by rw [state]; rcases other with h | h <;> simp [h]
    have notOpened : u.wr.state ≠ .opened := by rw [state]; rcases other with h | h <;> simp [h]
    rw [State.writerAbortEnd_of_empty notDone stillNone noneOut (.inl notOpened)]
    exact ⟨rfl, rfl⟩

end

/-! ## The session's end -/

/-- The summary write that an abort overtakes: dropped, or its answer discarded. -/
theorem State.overtakeSummary_of_summary {s : State} {k : Fin 3} {bytes : List Byte} (task : s.eng.task = .summary k bytes) :
    (s.port.engine = .none → s.overtakeSummary.eng.task = .none) ∧
      (s.port.engine ≠ .none → s.overtakeSummary.eng.task = .discard) := by
  have overtaken : s.overtakeSummary.eng.task = if s.port.engine.isNone then .none else .discard := by
    simp only [State.overtakeSummary, task]
  rw [overtaken]
  refine ⟨fun none => by rw [none]; rfl, fun some => if_neg fun isNone => some ?_⟩
  revert isNone
  cases s.port.engine with
  | none => exact fun _ => rfl
  | waiting rq | outstanding rq k g => exact fun isNone => by cases isNone

theorem exec_abort_session {s : State} (free : s.free) (accepted : s.accepts .abort) (session : s.eng.state ≠ .preparing) :
    exec .abort s = .next (s.setResult .accepted).abortBegun.writerAbort.stopBlocks.writerAbortEnd := by
  rw [exec_abort_of_accepts free accepted, ← State.abortSession_eq]
  exact congrArg _ (if_neg session)

/-- The answer to a summary write that an abort or a fault overtook. -/
theorem discardedAnswer {s : State} {rq : Request} {k : Byte} {g : Nat} (ok : Bool) (d : BusData) (free : s.free)
    (quiet : s.port.quiet = none) (noReset : s.eng.resetPending = false)
    (gone : s.eng.state = .ended ∨ s.eng.state = .faulted) (task : s.eng.task = .discard)
    (outstanding : s.port.engine = .outstanding rq k g) :
    ∃ t, exec (.response .engine k ok d) s = .next t ∧ t.eng = { s.eng with task := .none } ∧ t.win = s.win ∧
      t.wr = s.wr := by
  have answered : State.engineAnswer { s with port := s.port.ended .engine } (responseAnswer ok d) =
      { s with port := s.port.ended .engine, eng := { s.eng with task := .none } } := by
    simp only [State.engineAnswer, noReset, task]
    rfl
  exact ⟨_, State.exec_engineAnswer ok d free quiet outstanding answered
    (.inl (by rcases gone with h | h <;> simp [h])), rfl, rfl, rfl⟩

/-- Settles O15: an ABORT of a session and of a preparation, and the answers that each of them waits for. -/
theorem abortTakesEffect : Obligations.AbortTakesEffect := by
  refine ⟨fun s free accepted session => ?_,
    fun s rq k g ok d free quiet noReset gone task outstanding =>
      discardedAnswer ok d free quiet noReset gone task outstanding,
    fun s free accepted preparing => abortWaits free accepted preparing,
    fun s rq k g ok d free quiet noReset preparing aborting => ⟨?_, ?_, ?_⟩,
    fun s free accepted preparing answered => abortEndsAtOnce free accepted preparing answered,
    fun s rq k g d free quiet noReset ended winding aborting outstanding =>
      ⟨fun p n => abortedRecordWritten d free quiet noReset ended aborting outstanding,
        fun x => abortedFillAnswered d free quiet noReset ended aborting outstanding,
        fun c => abortedHeaderWritten d free quiet noReset ended aborting outstanding,
        fun c => abortedCloseComplete d free quiet noReset ended aborting outstanding,
        abortedAccessFails d free quiet noReset ended aborting outstanding winding⟩⟩
  · refine ⟨_, exec_abort_session free accepted session, ?_⟩
    have records : (s.setResult .accepted).stopRecords s.cal = s.stopRecords s.cal := State.stopRecords_congr rfl rfl rfl _
    obtain ⟨eng, tb, win, params, links, pins, loader, engine⟩ := (s.setResult .accepted).abortStopped_spec
    obtain ⟨cal, lanes, chans, power, queue, inFlight, closing⟩ := (s.setResult .accepted).abortStopped_blocks
    have ofDone := State.abortStopped_of_done (s := s.setResult .accepted)
    have ofGoing := State.abortStopped_wr (s := s.setResult .accepted)
    have summary (k : Fin 3) (bytes : List Byte) :=
      State.overtakeSummary_of_summary (s := s.setResult .accepted) (k := k) (bytes := bytes)
    have sameCal : (s.setResult .accepted).cal = s.cal := rfl
    rw [sameCal, records] at ofDone ofGoing
    generalize (s.setResult .accepted).abortBegun.writerAbort.stopBlocks = u at *
    have now : u.now = s.now := by simp only [State.now, tb]; rfl
    have withdrawn : s.wr.state ≠ .done →
        u.wr = s.wr.abortTaken (s.port.writer.isWaiting && !s.wr.task.closing) (s.stopRecords s.cal).length ∧
        u.port.writer = (if s.port.writer.isWaiting && !s.wr.task.closing then .none else s.port.writer) := ofGoing
    have ended := u.writerAbortEnd_eng
    have sameLane (i : LaneId) : u.writerAbortEnd.lane i = u.lane i := by simp only [State.lane, State.writerAbortEnd_frame]
    have sameChan (ch : ChanId) : u.writerAbortEnd.chan ch = u.chan ch := by
      simp only [State.chan, State.writerAbortEnd_frame]
    simp only [sameLane, sameChan, State.writerAbortEnd_frame]
    rw [ended, eng]
    refine ⟨rfl, rfl, rfl, rfl, rfl, rfl, tb, cal, lanes, chans, power, queue, inFlight, closing, fun going => ?_,
      fun done => ?_, fun going noFault => ?_, fun noClose answered => ?_, fun going waits => ?_, fun going closes => ?_,
      fun going noClose => ?_, summary, loader, engine, params, links, win, pins⟩
    · exact State.writerAbortEnd_queue (by rw [(withdrawn going).1]; rfl)
    · have offered : u.wr = s.wr.offered s.now (s.stopRecords s.cal) := ofDone done
      have isDone : u.wr.state = .done := by rw [offered, Writer.offered_of_done _ done]; exact done
      rw [State.writerAbortEnd_of_done isDone]
      exact ⟨offered, rfl⟩
    · rw [State.writerAbortEnd_lost (withdrawn going).1 noFault]
      exact satAdd_toNat _ _
    · by_cases done : s.wr.state = .done
      · simp [done]
      · obtain ⟨wr, port⟩ := withdrawn done
        rw [← now]
        exact writerAbortEnd_of_free wr port noClose answered
    · obtain ⟨wr, port⟩ := withdrawn going
      exact writerAbortEnd_of_outstanding wr port going waits
    · obtain ⟨wr, port⟩ := withdrawn going
      exact writerAbortEnd_of_closing wr port going closes
    · rw [(withdrawn going).2]
      exact withdrawnWriter_of_noClose noClose
  · exact abortedReadAnswered ok d free quiet noReset preparing aborting
  · exact abortedFetchAnswered ok d free quiet noReset preparing aborting
  · exact abortedWriteAnswered ok d free quiet noReset preparing aborting

end Sys2Proof.Machine
end
